-- ==== Sys2Proof/Word.lean ====
section
/-! DEFINITION. The words of the part: the widths the manual gives its fields (00 section 6, 01 Table 1-1), and the small types the operands of commands are made of. -/

namespace Sys2Proof

/-- One byte of a frame, a record or the register window. -/
abbrev Byte := BitVec 8

/-- A 16-bit field: sequences, leases, counters, types, stamps. -/
abbrev Half := BitVec 16

/-- A 48-bit Ethernet address. -/
abbrev Address := BitVec 48

/-- A 32-bit network-layer identifier (R49). -/
abbrev Identifier := BitVec 32

/-- A switch port, 0 to 31. -/
abbrev Port := BitVec 5

/-- A segment, 0 to 4095. -/
abbrev Segment := BitVec 12

/-- A generation, 0 to 255, counted modulo 256 (R2). -/
abbrev Generation := BitVec 8

/-- A slot of the Station Table, 0 to 63 (R1). -/
abbrev Slot := Fin 64

/-- A rule number, 0 to 95 (R59). -/
abbrev RuleNumber := Fin 96

/-- The four timing parameters of CONFIGURATION_WRITE (R204). -/
inductive TimingField where
  | wakeInterval
  | wakeAttemptLimit
  | steerAckTimeout
  | steerRetryLimit
  deriving DecidableEq, Repr

/-- The three notice parameters of NOTICE_PARAMETER_WRITE (R198). -/
inductive NoticeField where
  | noticeTrigger
  | noticeHoldoff
  | noticeClassMask
  deriving DecidableEq, Repr

/-- The intake tag as its six bytes carry it (R207): no value is out of range of its bytes. -/
structure IntakeTag where
  ingress : Byte
  segment : Half
  reason : Byte
  length : Half
  deriving DecidableEq, Repr

/-- The parts of a transfer on the fabric intake port that the part takes as events (R76, R207). An IEOF before the
six tag bytes have arrived is none of them. DESIGN CHOICE, assumption log 12. -/
inductive ArrivalPart where
  /-- ISOF: the transfer starts, and a slot becomes occupied. -/
  | start
  /-- IEOF: the transfer that started ends, having carried this tag and these frame bytes. -/
  | finish (tag : IntakeTag) (bytes : List Byte)
  /-- A whole transfer, from ISOF to IEOF. -/
  | whole (tag : IntakeTag) (bytes : List Byte)
  deriving DecidableEq, Repr

/-- The parts of a write transaction on the SPI port (R200, R201), by what they do beside bringing data bytes.
DESIGN CHOICE, assumption log 30. -/
inductive WritePart where
  /-- NCS has fallen, and the instruction 0x01, the start address and the data bytes so far have been received:
  the transaction is in progress. -/
  | start (addr : Half)
  /-- After further data bytes NCS rises: the write event of the transaction in progress. -/
  | finish
  /-- A whole transaction, from NCS falling to NCS rising. -/
  | whole (addr : Half)
  deriving DecidableEq, Repr

/-- The parts of a read transaction of the take window (R194, R200), by the byte of the window at which the
read begins. DESIGN CHOICE, assumption log 30. -/
inductive ReadPart where
  /-- The second address byte has been received: the read event; the transaction stays in progress. -/
  | start (first : Nat)
  /-- NCS rises at the end of the read in progress. -/
  | finish
  /-- A whole transaction. -/
  | whole (first : Nat)
  deriving DecidableEq, Repr

/-- The three steps of the execution of a latched command (R169). A command row says up to which of
them it carries the execution; `completion` is the whole row. DESIGN CHOICE, assumption log 9. -/
inductive CommandStage where
  | checks
  | event
  | completion
  deriving DecidableEq, Repr

/-- How much of one frame's classification a FRAME_CLASSIFICATION makes (R79): all tests that are
left, or the next `n`. DESIGN CHOICE, assumption log 10. -/
inductive ClassificationExtent where
  | whole
  | tests (n : Nat)
  deriving DecidableEq, Repr

/-- The reasons of a NAK (Table 9-1). -/
inductive NakReason where
  | full
  | unknown
  | malformed
  deriving DecidableEq, Repr

/-- What a valid message from the switch says (R145, R208). The sequence byte is kept whole. -/
inductive LinkAnswer where
  | ack (sequence : Byte)
  | nak (sequence : Byte) (reason : NakReason)
  deriving DecidableEq, Repr

end Sys2Proof
end

