-- ==== Sys2Proof/Config.lean ====
section
/-! DEFINITION. What is fixed for the part: capacities, code numbers and reset values the manual states. There is no free value: the manual leaves no result open (assumption log 22). -/

namespace Sys2Proof.Config

/-- R206: slots above this bound are no slots. -/
def slotCount : Nat := 64

/-- R59, R206: the number of rules in RSTORE. -/
def ruleCount : Nat := 96

/-- R5, R6: the most entries of an identifier list or a rule list. -/
def listCapacity : Nat := 8

/-- R47: the most entries of IDMAP. -/
def mapCapacity : Nat := 256

/-- R131: the most entries of the emission queue. -/
def emissionCapacity : Nat := 16

/-- R188: the most notices of the notice queue. -/
def noticeCapacity : Nat := 32

/-- R75: the shortest frame taken. -/
def frameMin : Nat := 14

/-- R75: the longest frame taken. -/
def frameMax : Nat := 1536

/-- R120: the shortest and the longest wake template. -/
def templateMin : Nat := 60

/-- R120: the longest wake template. -/
def templateMax : Nat := 128

/-- R105: the length of every frame RESP builds. -/
def answerLength : Nat := 60

/-- Table 12-2: IDENT, device code, revision and window version. -/
def identBytes : List Byte := [0x20#8, 0x64#8, 0x01#8, 0x01#8]

/-- R62: the constant of the 32-bit cyclic check. -/
def checkConstant : BitVec 32 := 0x82F63B78#32

/-- R200: the size in bytes of the command area and of the result area. -/
def areaSize : Nat := 256

/-- R194, Table 12-8: the size in bytes of a notice record. -/
def noticeRecordSize : Nat := 16

/-- Table 12-4: the codes of the seventeen commands. -/
def commandCodes : List Byte :=
  [0x01#8, 0x02#8, 0x03#8, 0x04#8, 0x05#8, 0x06#8, 0x07#8, 0x08#8, 0x09#8,
   0x0A#8, 0x0B#8, 0x0C#8, 0x0D#8, 0x20#8, 0x21#8, 0x22#8, 0x30#8]

end Sys2Proof.Config
end

