-- ==== Sys2Proof/Syntax.lean ====
section
/-! DEFINITION. The commands of the part: one constructor per row of spec/opcode_table.json, in the table's order, with the operands its rule names. -/

namespace Sys2Proof

/-- The commands: one constructor per row of spec/opcode_table.json. -/
inductive Instr where
  /-- HARD_RESET (R203). -/
  | hardReset
  /-- SOFT_RESET (R203). -/
  | softReset
  /-- REGISTER_WRITE (R201): one write transaction, or a part of it. -/
  | registerWrite (part : WritePart) (data : List Byte)
  /-- RUN_SET (R158). -/
  | runSet
  /-- RUN_CLEARED (R160). -/
  | runCleared
  /-- GO (R167). -/
  | go
  /-- INT_ENABLE_WRITE (R198): the bit written. -/
  | intEnableWrite (value : Bool)
  /-- CMD_OVERRUN_CLEAR (R168). -/
  | cmdOverrunClear
  /-- NOTICE_OVERRUN_CLEAR (R195). -/
  | noticeOverrunClear
  /-- CONFIG_REFUSED_CLEAR (R202). -/
  | configRefusedClear
  /-- NAME_WRITE_REFUSED_CLEAR (R202). -/
  | nameWriteRefusedClear
  /-- CONFIGURATION_WRITE (R204): the field and the byte written. -/
  | configurationWrite (field : TimingField) (value : Byte)
  /-- RECOGNITION_VALUE_WRITE (R205): the first byte written, counted from 0x010, and the bytes. -/
  | recognitionValueWrite (first : Nat) (bytes : List Byte)
  /-- NOTICE_PARAMETER_WRITE (R198): the field and the byte written. -/
  | noticeParameterWrite (field : NoticeField) (value : Byte)
  /-- TAKE (R194): one read transaction of the take window, or a part of it. -/
  | take (part : ReadPart)
  /-- STATION_CREATE (R174). -/
  | stationCreate (upTo : CommandStage)
  /-- STATION_SET_TEMPLATE (R175). -/
  | stationSetTemplate (upTo : CommandStage)
  /-- STATION_CLEAR_TEMPLATE (R121). -/
  | stationClearTemplate (upTo : CommandStage)
  /-- STATION_ADD_IDENTIFIER (R176). -/
  | stationAddIdentifier (upTo : CommandStage)
  /-- STATION_REMOVE_IDENTIFIER (R53). -/
  | stationRemoveIdentifier (upTo : CommandStage)
  /-- STATION_ATTACH_RULE (R177). -/
  | stationAttachRule (upTo : CommandStage)
  /-- STATION_DETACH_RULE (R73). -/
  | stationDetachRule (upTo : CommandStage)
  /-- STATION_READ (R19). -/
  | stationRead (upTo : CommandStage)
  /-- STATION_SLEEP (R178). -/
  | stationSleep (upTo : CommandStage)
  /-- STATION_WAKE (R179). -/
  | stationWake (upTo : CommandStage)
  /-- STATION_RETIRE (R180). -/
  | stationRetire (upTo : CommandStage)
  /-- STATION_CLEAR_COUNTERS (R18). -/
  | stationClearCounters (upTo : CommandStage)
  /-- STATION_FIND (R182). -/
  | stationFind (upTo : CommandStage)
  /-- RULE_DEFINE (R183). -/
  | ruleDefine (upTo : CommandStage)
  /-- RULE_DELETE (R184). -/
  | ruleDelete (upTo : CommandStage)
  /-- RULE_READ (R71). -/
  | ruleRead (upTo : CommandStage)
  /-- STEER_RESTART (R185). -/
  | steerRestart (upTo : CommandStage)
  /-- UNKNOWN_COMMAND_CODE (R171). -/
  | unknownCommandCode (upTo : CommandStage)
  /-- FRAME_ARRIVAL (R75). -/
  | frameArrival (part : ArrivalPart)
  /-- FRAME_CLASSIFICATION (R79). -/
  | frameClassification (extent : ClassificationExtent)
  /-- SIGHTING (R25): STAB takes the sighting presented for this slot. -/
  | sighting (slot : Slot)
  /-- ANNOUNCEMENT (R86): STAB takes the announcement presented for this slot. -/
  | announcement (slot : Slot)
  /-- WAKE_TRIGGER (R37): STAB takes the wake trigger presented for this slot. -/
  | wakeTrigger (slot : Slot)
  /-- SHED (R93): STAB takes the raise of the shed counter presented for this slot. -/
  | shed (slot : Slot)
  /-- LEASE_EXPIRY (R39): the slot, and the seconds boundaries that pass up to it. -/
  | leaseExpiry (slot : Slot) (elapsed : Nat)
  /-- INTERVAL_EXPIRY (R115): the slot, and the 100 ms boundaries that pass up to it. -/
  | intervalExpiry (slot : Slot) (elapsed : Nat)
  /-- REPLY_JOB (R102). -/
  | replyJob
  /-- PROBE_REPLY_JOB (R103). -/
  | probeReplyJob
  /-- SLEEP_ACK_JOB (R104). -/
  | sleepAckJob
  /-- TRANSMISSION_BEGIN (R134): the switch shows ready on the emission port. -/
  | transmissionBegin
  /-- TRANSMISSION_COMPLETION (R135): the last byte has been sent. -/
  | transmissionCompletion
  /-- STEER_SEND (R150). -/
  | steerSend
  /-- ACK (R151): the bytes received on LRXD. -/
  | ack (run : List Byte)
  /-- NAK (R151): the bytes received on LRXD. -/
  | nak (run : List Byte)
  /-- STEER_MESSAGE_DISCARDED (R145): the bytes received on LRXD. -/
  | steerMessageDiscarded (run : List Byte)
  /-- ACK_TIMEOUT (R153): the millisecond boundaries that pass up to it. -/
  | ackTimeout (elapsed : Nat)
  /-- DEFERRED_START (R161). -/
  | deferredStart
  /-- NOTICE_HOLDOFF (R196): the millisecond boundaries that pass up to it. -/
  | noticeHoldoff (elapsed : Nat)
  /-- LEASE_SECOND_BOUNDARY (R24). -/
  | leaseSecondBoundary
  /-- AGE_BOUNDARY (R196). -/
  | ageBoundary
  /-- LINE_IDLE (R208). -/
  | lineIdle
  deriving DecidableEq, Repr

end Sys2Proof
end

