-- ==== Sys2Proof/Decode.lean ====
section
/-! DEFINITION. Reading bits and bytes: the table's words (it gives none), the bits of an SPI write transaction, the bytes of an intake transfer, the bytes of a steering message. -/

namespace Sys2Proof

/-- spec/opcode_table.json gives no row any bits, so no word spells a command. -/
def decodeTableWord (_nbits _w : Nat) : Option Instr := none

/-! ### Bytes and fields: the most significant byte first (00 7.3) -/

/-- The number whose bytes, most significant first, are `bytes`, continued from `acc`. -/
def beNatFrom (acc : Nat) : List Byte → Nat
  | [] => acc
  | b :: rest => beNatFrom (acc * 256 + b.toNat) rest

/-- The number whose bytes, most significant first, are `bytes`. -/
def beNat (bytes : List Byte) : Nat := beNatFrom 0 bytes

/-- The `len` bytes of `n`, most significant first. -/
def beBytes : Nat → Nat → List Byte
  | 0, _ => []
  | len + 1, n => BitVec.ofNat 8 (n / 256 ^ len) :: beBytes len n

/-- The field of `len` bytes at offset `off` of a frame or record. -/
def fieldAt (bytes : List Byte) (off len : Nat) : Nat := beNat ((bytes.drop off).take len)

/-- The byte at offset `off`, 0 where there is none. -/
def byteAt (bytes : List Byte) (off : Nat) : Byte := bytes.getD off 0#8

/-! ### The SPI port (R200, R201) -/

/-- A byte from its eight bits, most significant bit first (12.1). -/
def byteOfBits (bits : List Bool) : Byte := BitVec.ofNat 8 (bits.foldl (fun n b => 2 * n + b.toNat) 0)

/-- The complete bytes of a run of bits; a byte whose eight bits were not all received is dropped
(R201). The first argument bounds the recursion by the number of bits. -/
def completeBytes : Nat → List Bool → List Byte
  | 0, _ => []
  | n + 1, bits => if bits.length < 8 then [] else byteOfBits (bits.take 8) :: completeBytes n (bits.drop 8)

/-- What a transaction is (Table 12-1, R200): a write with its start address and complete data bytes, a
read with its start address, or one that is ignored: its instruction is neither 0x01 nor 0x02, or it ends
before its second address byte. -/
inductive SpiMeaning where
  | write (addr : Half) (data : List Byte)
  | read (addr : Half)
  | ignored
  deriving DecidableEq, Repr

/-- What the bytes on MOSI spell, from NCS falling on. -/
def meaningOfBytes (mosi : List Byte) : SpiMeaning :=
  match mosi with
  | instruction :: high :: low :: data =>
    if instruction = 0x01#8 then .write (high ++ low) data
    else if instruction = 0x02#8 then .read (high ++ low)
    else .ignored
  | _ => .ignored

/-- What the bits on MOSI spell, from NCS falling to NCS rising. -/
def decodeSpi (mosi : List Bool) : SpiMeaning := meaningOfBytes (completeBytes mosi.length mosi)

/-- R200: an address of the window: bits 15 to 10 of the start address are ignored. -/
def windowAddress (addr : Half) : Nat := addr.toNat % 1024

/-- The command a transaction is: a write is REGISTER_WRITE, a read that begins in the take window is TAKE
(R194). Every other read, and a transaction that is ignored, changes nothing and is no command. -/
def SpiMeaning.command : SpiMeaning → Option Instr
  | .write addr data => some (.registerWrite (.whole addr) data)
  | .read addr =>
    if 0x310 ≤ windowAddress addr ∧ windowAddress addr < 0x320 then
      some (.take (.whole (windowAddress addr - 0x310)))
    else none
  | .ignored => none

/-! ### The fabric intake port (R207) -/

/-- The tag and the frame bytes of one intake transfer; a transfer too short to hold a tag has none, and
no FRAME_ARRIVAL ends it (DESIGN CHOICE, assumption log 12). -/
def decodeIntake (bytes : List Byte) : Option (IntakeTag × List Byte) :=
  if bytes.length < 6 then none
  else some (⟨byteAt bytes 0, BitVec.ofNat 16 (fieldAt bytes 1 2), byteAt bytes 3,
    BitVec.ofNat 16 (fieldAt bytes 4 2)⟩, bytes.drop 6)

/-! ### The steering link (R144, R145, R208) -/

/-- The sum of bytes taken as unsigned numbers, modulo 256 (R144). -/
def byteSum (bytes : List Byte) : Nat := (bytes.foldl (fun n b => n + b.toNat) 0) % 256

/-- The check byte of a message's bytes 0 to 14 (R144): 255 minus their sum modulo 256. -/
def checkByte (bytes : List Byte) : Byte := BitVec.ofNat 8 (255 - byteSum bytes)

/-- The reason a NAK's byte 11 names (Table 12-12). -/
def nakReason (b : Byte) : Option NakReason :=
  match b.toNat with
  | 1 => some .full
  | 2 => some .unknown
  | 3 => some .malformed
  | _ => none

/-- The answer a run of bytes on LRXD holds, taken from its first 16 bytes (R208); none where fewer than
16 arrived, the 16 bytes do not add up to 255 modulo 256, the kind is neither ACK nor NAK, or a NAK's
reason is unknown (R145). -/
def decodeAnswer (run : List Byte) : Option LinkAnswer :=
  let message := run.take 16
  if message.length < 16 ∨ byteSum message ≠ 255 then none
  else
    match (byteAt message 0).toNat with
    | 8 => some (.ack (byteAt message 1))
    | 9 => (nakReason (byteAt message 11)).map (.nak (byteAt message 1))
    | _ => none

end Sys2Proof
end

