-- ==== Sys2Proof/Machine/State.lean ====
section
/-! DEFINITION. Everything the part holds, block by block (00 section 3.1), as plain data; its value after hard reset. -/

namespace Sys2Proof.Machine

/-! ### STAB: the Station Table (01, 02) -/

/-- The result codes of a SLEEP_ACK, 0 to 6 in this order (R104). -/
inductive AckCode where
  | accepted
  | noTemplate
  | notRunning
  | linkDown
  | steerRefused
  | inTransition
  | retiring
  deriving DecidableEq, Repr

/-- The cause of a waking (R11). -/
inductive WakeCause where
  | lease
  | rule (number : RuleNumber)
  | query (identifier : Identifier)
  | command
  deriving DecidableEq, Repr

/-- The outcome of a leaving (R11). -/
inductive LeaveReason where
  | confirmed
  | exhausted
  deriving DecidableEq, Repr

/-- The origin of the sleep request a record in ENTERING holds, in one of two forms and never in both
(R9): the pending acknowledgement or the command lease. -/
inductive SleepOrigin where
  | announced (sequence lease : Half)
  | commanded (lease : Half)
  deriving DecidableEq, Repr

/-- The lease of an ASLEEP record (R8): the seconds left, and whether the boundary at which they would
reach 0 has passed with the expiry not yet taken (assumption log 7). -/
structure LeaseRun where
  remaining : Half
  runOut : Bool
  deriving DecidableEq, Repr

/-- The states of an enrolled record, each with the optional fields Table 1-2 gives it. VACANT is a
record with no station. -/
inductive StationState where
  | awake
  | entering (origin : SleepOrigin)
  | asleep (lease : Option LeaseRun)
  | waking (cause : WakeCause) (held : Option (Fin 16))
  | leaving (reason : LeaveReason) (cause : Option WakeCause)
  | lapsed
  | retiring
  deriving DecidableEq, Repr

/-- One entry of a record's identifier list (R5). -/
structure ListedIdentifier where
  identifier : Identifier
  wakeOnQuery : Bool
  deriving DecidableEq, Repr

/-- The station fields of an enrolled record (Table 1-1). -/
structure Station where
  address : Address
  port : Port
  segment : Segment
  defaultLease : Half
  identifiers : List ListedIdentifier
  rules : List RuleNumber
  template : Option (List Byte)
  state : StationState
  lastSequence : Option Half
  lastAck : Option (AckCode × Half)
  wakeAttempts : Nat
  answersSent : Half
  wakesBegun : Half
  framesShed : Half
  deriving DecidableEq, Repr

/-- One slot of the Station Table (R1): its generation, and the enrolled station unless it is VACANT. -/
structure Record where
  generation : Generation
  station : Option Station
  deriving DecidableEq, Repr

/-- The op of an announcement (Table 5-3). -/
inductive AnnounceOp where
  | sleep
  | awake
  deriving DecidableEq, Repr

/-- What ICLS presents to STAB for a record (R77, R80). A trigger names the intake slot of the STEERED
frame it carries, if it carries one. -/
inductive PresentedKind where
  | sighting
  | announcement (op : AnnounceOp) (sequence lease : Half)
  | trigger (cause : WakeCause) (frame : Option (Fin 4))
  | shed
  deriving DecidableEq, Repr

/-- An event presented by ICLS and not yet taken: it names the slot and the station address that ICLS
matched (R80). -/
structure Presented where
  slot : Slot
  address : Address
  kind : PresentedKind
  deriving DecidableEq, Repr

/-! ### IDMAP and RSTORE (03, 04) -/

/-- An Identifier Map entry (Table 3-1). -/
structure MapEntry where
  identifier : Identifier
  segment : Segment
  slot : Slot
  wakeOnQuery : Bool
  deriving DecidableEq, Repr

/-- The scope of a wake rule (R61). -/
inductive Scope where
  | directed
  | any
  deriving DecidableEq, Repr

/-- A span of frame bytes (R60). -/
structure Span where
  offset : Nat
  length : Nat
  deriving DecidableEq, Repr

/-- What a DEFINED rule holds beside its number and count (R59). -/
structure RuleBody where
  scope : Scope
  spans : List Span
  digest : BitVec 32
  deriving DecidableEq, Repr

/-- One rule of RSTORE: FREE where it has no body (R59). -/
structure Rule where
  refCount : Nat
  body : Option RuleBody
  deriving DecidableEq, Repr

/-! ### ICLS: intake slots (05) -/

/-- Why the switch delivered a frame (Table 5-1). -/
inductive DeliveryReason where
  | steered
  | flood
  | direct
  deriving DecidableEq, Repr

/-- A frame in an intake slot with what its tag says; the tag's length is the number of bytes (R75). -/
structure Frame where
  ingress : Port
  segment : Segment
  reason : DeliveryReason
  bytes : List Byte
  deriving DecidableEq, Repr

/-- What a transfer has left in a slot, before the first test (R75, R207): its tag, its frame bytes up to
the 1536th, and the number of frame bytes it carried. -/
structure Arrived where
  tag : IntakeTag
  bytes : List Byte
  count : Nat
  deriving DecidableEq, Repr

/-- An intake slot (R76, R77): free, being filled by a transfer, holding what arrived with no test made,
holding a frame that has passed test 1 and whose classification has not ended, holding a frame presented
with a wake trigger, holding the frame of a PASS entry. -/
inductive IntakeSlot where
  | free
  | arriving
  | received (arrived : Arrived)
  | unclassified (frame : Frame)
  | triggered (frame : Frame)
  | passing (frame : Frame)
  deriving DecidableEq, Repr

/-- The next test of a frame that has passed test 1 (Table 5-2). `answer` follows a lookup that found an entry
(R54, R90); `flood k` is test 6 at the record of slot `k` (assumption log 27). -/
inductive NextTest where
  | sighting
  | announcement
  | query
  | answer (slot : Slot) (wakeOnQuery : Bool)
  | probe
  | steered
  | flood (k : Nat)
  deriving DecidableEq, Repr

/-- The classification in progress: the next test, and the slot the frame was a sighting of (R67). -/
structure Classification where
  next : NextTest
  sighted : Option Slot
  deriving DecidableEq, Repr

/-- The Intake Classifier: its slots, the slots whose frames are not yet classified in arrival order,
and the classification of the oldest of them when it has begun. -/
structure Icls where
  slots : Vector IntakeSlot 4
  arrivals : List (Fin 4)
  current : Option Classification
  deriving DecidableEq, Repr

/-! ### RESP: the Responder (06) -/

/-- A job from ICLS (R97). A probe carries no target identifier. -/
inductive AnswerKind where
  | reply (targetIdentifier : Identifier)
  | probeReply
  deriving DecidableEq, Repr

/-- The job's fields: the record found, the question's sender, and the way the question came. -/
structure AnswerJob where
  kind : AnswerKind
  slot : Slot
  address : Address
  sender : Address
  senderIdentifier : Identifier
  port : Port
  segment : Segment
  deriving DecidableEq, Repr

/-- A SLEEP_ACK job from STAB (R97). -/
structure AckJob where
  slot : Slot
  address : Address
  port : Port
  segment : Segment
  code : AckCode
  sequence : Half
  granted : Half
  deriving DecidableEq, Repr

/-- The Responder: its eight buffers, FREE where they hold no frame (R96), and the jobs handed to it
and not yet taken, those of ICLS and those of STAB each in their order (R97). -/
structure Resp where
  buffers : Vector (Option (List Byte)) 8
  answerJobs : List AnswerJob
  ackJobs : List AckJob
  deriving DecidableEq, Repr

/-! ### WAKE and HOLD (07) -/

/-- A waking context (Table 7-1); its slot is its place. `remaining` 0 is a timer that has run out with
its expiry not yet taken (assumption log 8). -/
structure WakingContext where
  address : Address
  remaining : Nat
  deriving DecidableEq, Repr

/-- A held buffer (R122); the frame's length is its number of bytes. -/
inductive HeldBuffer where
  | free
  | reserved (bytes : List Byte)
  | queued (bytes : List Byte)
  deriving DecidableEq, Repr

/-! ### EMIT (08) -/

/-- The kind of an emission entry with the resource it refers to (Table 8-1). -/
inductive EntryKind where
  | answer (buffer : Fin 8)
  | wake (slot : Slot) (address : Address)
  | held (buffer : Fin 16)
  | pass (slot : Fin 4)
  deriving DecidableEq, Repr

/-- An emission entry with its emission tag (R132). Its state is where it stands: `Emit.sending` or
`Emit.waiting`. -/
structure Entry where
  kind : EntryKind
  port : Port
  segment : Segment
  deriving DecidableEq, Repr

/-- A transfer on the fabric emission port: the emission tag and the frame bytes (R141, R207). -/
structure Transfer where
  port : Port
  segment : Segment
  bytes : List Byte
  deriving DecidableEq, Repr

/-- The emission queue (R131): the SENDING entry, which is the head, with the transfer that carries its
bytes as they stood at the begin (R118); then the WAITING entries in order. -/
structure Emit where
  sending : Option (Entry × Transfer)
  waiting : List Entry
  deriving DecidableEq, Repr

/-! ### STEER (09) -/

/-- The operating mode (Table 9-3). -/
inductive Mode where
  | stopped
  | starting
  | running
  | stopping
  deriving DecidableEq, Repr

/-- The state of the steering link (Table 9-2). -/
inductive LinkState where
  | idle
  | up
  | down
  deriving DecidableEq, Repr

/-- The kind of a request a record places (R148). -/
inductive SteerKind where
  | divert
  | restore
  deriving DecidableEq, Repr

/-- An unsent request of the steering queue (Table 9-2). The port is used by a RESTORE alone. -/
structure SteerRequest where
  kind : SteerKind
  slot : Slot
  address : Address
  segment : Segment
  port : Port
  deriving DecidableEq, Repr

/-- What a sent request asks: CLEAR_ALL names no slot (R147). -/
inductive RequestBody where
  | station (request : SteerRequest)
  | clearAll
  deriving DecidableEq, Repr

/-- The in-flight request (Table 9-2). -/
structure InFlight where
  body : RequestBody
  sequence : BitVec 4
  retries : Nat
  deriving DecidableEq, Repr

/-- The Steering Agent (Table 9-2, R208). `ackTimer` is absent when stopped, and 0 when it has run out
with its timeout not yet taken (assumption log 8). `footing`: the receiver takes the next byte as byte 0
of a message. `deferredStart`: STOPPED has been reached with RUN reading 1 (R161). -/
structure Steer where
  mode : Mode
  link : LinkState
  queue : List SteerRequest
  inFlight : Option InFlight
  ackTimer : Option Nat
  sequence : BitVec 4
  footing : Bool
  deferredStart : Bool
  deriving DecidableEq, Repr

/-! ### CMDE (10) -/

/-- The bytes of an addressed area: (offset, byte) pairs, offsets strictly rising, no byte 0. An offset
not listed reads 0x00, the value both resets give (R166, R173). -/
abbrev Memory := List Host.Cell

/-- The result codes of commands, 0 to 19 in this order (Table 10-2). -/
inductive ResultCode where
  | ok
  | pending
  | badCommand
  | badArgument
  | staleHandle
  | notFound
  | tableFull
  | duplicateAddress
  | listFull
  | mapFull
  | duplicateIdentifier
  | duplicateRule
  | ruleUndefined
  | ruleDefined
  | ruleInUse
  | stateConflict
  | noTemplate
  | notRunning
  | linkDown
  | notDown
  deriving DecidableEq, Repr

/-- A result: its code and its result data (R170). -/
structure Reply where
  code : ResultCode
  data : List Byte
  deriving DecidableEq, Repr

/-- How far the execution of the latched command has gone (R169): nothing yet, the checks at CMDE passed,
the result decided and not yet written. -/
inductive Progress where
  | latched
  | checked
  | decided (reply : Reply)
  deriving DecidableEq, Repr

/-- The engine (R166): BUSY holds exactly one latched command. -/
inductive Engine where
  | idle
  | busy (command : Memory) (progress : Progress)
  deriving DecidableEq, Repr

/-- The Command Engine (Table 10-1). -/
structure Cmde where
  engine : Engine
  resultArea : Memory
  overrun : Bool
  deriving DecidableEq, Repr

/-! ### NQ (11) -/

/-- The kinds of notice, 1 to 11 in this order (Table 12-8). -/
inductive NoticeKind where
  | wakeFailed
  | steerLinkDown
  | stationAsleep
  | stationReturned
  | wakeBegun
  | stationRetired
  | steerRefused
  | modeChanged
  | unknownAnnouncer
  | holdUnavailable
  | answerDropped
  deriving DecidableEq, Repr

/-- The kinds of a steering request as a notice names them (Table 12-9). -/
inductive RequestKind where
  | divert
  | restore
  | clearAll
  deriving DecidableEq, Repr

/-- The kinds of a dropped answer (R100). -/
inductive DroppedAnswer where
  | reply
  | probeReply
  | sleepAck
  deriving DecidableEq, Repr

/-- The causes of a drop (R100). -/
inductive DropCause where
  | noBuffer
  | noPlace
  | unconfigured
  deriving DecidableEq, Repr

/-- The detail of a notice (Table 11-2). -/
inductive Detail where
  | none
  | cause (cause : WakeCause)
  | request (kind : RequestKind) (sequence : BitVec 4)
  | lease (effective : Half)
  | refusal (kind : RequestKind) (reason : NakReason)
  | mode (mode : Mode)
  | address (source : Address)
  | rule (number : RuleNumber)
  | drop (answer : DroppedAnswer) (cause : DropCause)
  deriving DecidableEq, Repr

/-- A notice (Table 11-1). Its class is fixed by its kind; its generation is present exactly when its
slot is. -/
structure Notice where
  kind : NoticeKind
  subject : Option (Slot × Generation)
  detail : Detail
  repeatCount : Byte
  stamp : Half
  age : Byte
  deriving DecidableEq, Repr

/-- The Notice Unit (R188): the queue in join order, the stamp counter, NOTICE_OVERRUN. -/
structure Nq where
  queue : List Notice
  stamp : Half
  overrun : Bool
  deriving DecidableEq, Repr

/-! ### MPORT (12) -/

/-- The configuration registers (Table 12-3). -/
structure Settings where
  partAddress : Address
  queryType : Half
  announceType : Half
  wakeInterval : Byte
  wakeAttemptLimit : Byte
  steerAckTimeout : Byte
  steerRetryLimit : Byte
  noticeTrigger : Byte
  noticeHoldoff : Byte
  noticeClassMask : BitVec 3
  deriving DecidableEq, Repr

/-- The four sticky flags of STATUS (Table 12-2). -/
inductive StickyFlag where
  | cmdOverrun
  | noticeOverrun
  | configRefused
  | nameWriteRefused
  deriving DecidableEq, Repr

/-- An event a write transaction has issued and its block has not yet taken (R201). -/
inductive PortEvent where
  | runSet
  | runCleared
  | go
  | clear (flag : StickyFlag)
  | softReset
  deriving DecidableEq, Repr

/-- A transaction in progress on the SPI port, NCS being low (R200, R201): a write with its start address
and the complete data bytes received so far, or a read whose read event has been taken. -/
inductive SpiTransaction where
  | write (addr : Half) (data : List Byte)
  | read
  deriving DecidableEq, Repr

/-- The Management Port: CONTROL's stored bits, the two flags it owns, the configuration, the command
area, the events issued and not yet taken, and the transaction in progress. -/
structure Mport where
  run : Bool
  intEnable : Bool
  configRefused : Bool
  nameWriteRefused : Bool
  settings : Settings
  commandArea : Memory
  issued : List PortEvent
  spi : Option SpiTransaction
  deriving DecidableEq, Repr

/-! ### Outputs -/

/-- How a transfer on the emission port ended (R135, R140). -/
inductive TransferEnd where
  | complete
  | aborted
  deriving DecidableEq, Repr

/-- How a message on LTXD ended (R144): sent whole, or cut off by a reset. -/
inductive MessageEnd where
  | whole
  | cutOff
  deriving DecidableEq, Repr

/-- What the part puts on its outputs: the bytes the last read of the take window returns (R200), the
message being sent on LTXD (R144; assumption log 19), and what has left: the transfers ended on the emission
port and the messages ended on LTXD, oldest first. The two records are the model's own (assumption log 20). -/
structure Outputs where
  capture : List Byte
  sending : Option (List Byte)
  emitted : List (Transfer × TransferEnd)
  steered : List (List Byte × MessageEnd)
  deriving DecidableEq, Repr

/-! ### The whole part -/

/-- The state of the part: the twelve blocks, the two output pins that follow conditions, the outputs,
and the queue of commands waiting. -/
structure State where
  stab : Vector Record 64
  presented : List Presented
  idmap : List MapEntry
  rstore : Vector Rule 96
  icls : Icls
  resp : Resp
  wake : Vector (Option WakingContext) 64
  hold : Vector HeldBuffer 16
  emit : Emit
  steer : Steer
  cmde : Cmde
  nq : Nq
  mport : Mport
  nint : Bool
  intakeReady : Bool
  out : Outputs
  pending : List Instr
  deriving DecidableEq, Repr

/-- The part has no fault: no rule makes an operation undefined or stops the part, so no meaning raises
one and the type has no constructor. Safe. -/
inductive Fault where
  deriving DecidableEq, Repr

/-- Why a command has no meaning. -/
inductive Refusal where
  /-- Raised by an arm of `exec` for a row that is not modelled yet. Safe. No arm raises it. -/
  | notModelled (mnemonic : String)
  deriving DecidableEq, Repr

/-! ### Reset contents -/

/-- Table 12-3, hard reset. -/
def Settings.reset : Settings :=
  { partAddress := 0#48, queryType := 0#16, announceType := 0#16, wakeInterval := 10#8,
    wakeAttemptLimit := 5#8, steerAckTimeout := 20#8, steerRetryLimit := 3#8, noticeTrigger := 1#8,
    noticeHoldoff := 0#8, noticeClassMask := 0#3 }

/-- R78: all four slots free. -/
def Icls.reset : Icls := { slots := Vector.replicate 4 .free, arrivals := [], current := none }

/-- R96: all eight buffers FREE. -/
def Resp.reset : Resp := { buffers := Vector.replicate 8 none, answerJobs := [], ackJobs := [] }

/-- R140: the queue is empty and nothing is SENDING. -/
def Emit.reset : Emit := { sending := none, waiting := [] }

/-- Table 9-2, hard reset; R208: the receiver waits for an idle line. -/
def Steer.reset : Steer :=
  { mode := .stopped, link := .idle, queue := [], inFlight := none, ackTimer := none, sequence := 0#4,
    footing := false, deferredStart := false }

/-- R166. -/
def Cmde.reset : Cmde := { engine := .idle, resultArea := [], overrun := false }

/-- R199. -/
def Nq.reset : Nq := { queue := [], stamp := 0#16, overrun := false }

/-- R202, R204, R173. -/
def Mport.reset : Mport :=
  { run := false, intEnable := false, configRefused := false, nameWriteRefused := false,
    settings := Settings.reset, commandArea := [], issued := [], spi := none }

/-- No transfer and no message yet (assumption log 20). -/
def Outputs.reset : Outputs := { capture := [], sending := none, emitted := [], steered := [] }

/-- The part right after hard reset (R203 and the rules named above). -/
def State.reset : State :=
  { stab := Vector.replicate 64 { generation := 0#8, station := none }
    presented := []
    idmap := []
    rstore := Vector.replicate 96 { refCount := 0, body := none }
    icls := Icls.reset
    resp := Resp.reset
    wake := Vector.replicate 64 none
    hold := Vector.replicate 16 .free
    emit := Emit.reset
    steer := Steer.reset
    cmde := Cmde.reset
    nq := Nq.reset
    mport := Mport.reset
    nint := false
    intakeReady := false
    out := Outputs.reset
    pending := [] }

end Sys2Proof.Machine
end

