-- ==== Sys2Proof/Machine/Ops.lean ====
section
/-! DEFINITION. The named operations over the part's tables, areas, queues and buffers: one home for each read and write. The blocks' rules are built from these. -/

namespace Sys2Proof.Machine

/-! ### Tables of fixed size -/

/-- The table with the entry at `i` replaced. -/
def tset {α : Type} {n : Nat} (v : Vector α n) (i : Fin n) (x : α) : Vector α n := v.set i.val x i.isLt

/-- The table with `f` applied to every entry. -/
def tmap {α : Type} {n : Nat} (f : α → α) (v : Vector α n) : Vector α n :=
  ⟨(v.toList.map f).toArray, by simp⟩

/-- The lowest-numbered place whose entry satisfies `p` (R14, R96, R123). -/
def lowest {α : Type} {n : Nat} (p : α → Bool) (v : Vector α n) : Option (Fin n) :=
  (List.finRange n).find? fun i => p v[i.val]

/-! ### Saturating counters -/

/-- A 16-bit counter raised by 1, stopping at 65535 (R17). -/
def saturate16 (c : Half) : Half := if c = 0xFFFF#16 then c else c + 1#16

/-- A byte raised by `n`, stopping at 255 (R190, R196). -/
def saturate8 (b : Byte) (n : Nat) : Byte := BitVec.ofNat 8 (min 255 (b.toNat + n))

/-! ### Addressed areas (R200): command area, result area, latched command -/

/-- What an unlisted offset reads as: the value both resets give (R166, R173). -/
def Memory.unlisted : Byte := 0#8

/-- The byte at an offset. -/
def Memory.read : Memory → Nat → Byte
  | [], _ => Memory.unlisted
  | (k, v) :: rest, a => if k = a then v else Memory.read rest a

/-- The area with the byte at an offset replaced, kept in canonical form. -/
def Memory.write : Memory → Nat → Byte → Memory
  | [], a, b => if b = Memory.unlisted then [] else [(a, b)]
  | (k, v) :: rest, a, b =>
    if a < k then (if b = Memory.unlisted then (k, v) :: rest else (a, b) :: (k, v) :: rest)
    else if a = k then (if b = Memory.unlisted then rest else (a, b) :: rest)
    else (k, v) :: Memory.write rest a b

/-- The canonical form: offsets strictly rising from `low` on, and no listed byte what an unlisted
offset reads as. -/
def Memory.wfFrom : Nat → Memory → Bool
  | _, [] => true
  | low, (k, v) :: rest => decide (low ≤ k) && decide (v ≠ Memory.unlisted) && Memory.wfFrom (k + 1) rest

/-- The canonical form of an area. -/
def Memory.wf (m : Memory) : Bool := Memory.wfFrom 0 m

/-- Bytes stored at rising offsets from `a`; bytes beyond the end of the 256-byte area are ignored
(R200). -/
def Memory.writeBytes : Memory → Nat → List Byte → Memory
  | m, _, [] => m
  | m, a, b :: rest =>
    if a < Config.areaSize then Memory.writeBytes (Memory.write m a b) (a + 1) rest else m

/-- The area that holds `bytes` from offset 0 on and zero after them (R170). -/
def Memory.ofBytes (bytes : List Byte) : Memory := Memory.writeBytes [] 0 bytes

/-- The `len` bytes of an area from offset `off`. -/
def Memory.bytes (m : Memory) (off len : Nat) : List Byte := (List.range len).map fun k => Memory.read m (off + k)

/-- The multi-byte field of an area, most significant byte first. -/
def Memory.field (m : Memory) (off len : Nat) : Nat := beNat (Memory.bytes m off len)

/-! ### Addresses -/

/-- A group address: the first byte's least significant bit is 1 (R4). -/
def isGroup (a : Address) : Bool := a.getLsbD 40

/-- The addresses a station may have: unicast, not all zero (R4, R15). -/
def isStationAddress (a : Address) : Bool := !isGroup a && decide (a ≠ 0#48)

/-! ### STAB: reading and writing records -/

/-- The enrolled station of a slot; absent when the record is VACANT. -/
def State.station (s : State) (i : Slot) : Option Station := s.stab[i.val].station

/-- The generation of a slot. -/
def State.generation (s : State) (i : Slot) : Generation := s.stab[i.val].generation

/-- The record of a slot replaced. -/
def State.setRecord (s : State) (i : Slot) (r : Record) : State := { s with stab := tset s.stab i r }

/-- The enrolled station of a slot replaced, its generation kept. -/
def State.setStation (s : State) (i : Slot) (st : Station) : State :=
  s.setRecord i { generation := s.generation i, station := some st }

/-- The enrolled station of a slot changed by `f`; a VACANT record is left alone. -/
def State.updateStation (s : State) (i : Slot) (f : Station → Station) : State :=
  match s.station i with
  | some st => s.setStation i (f st)
  | none => s

/-- The state of an enrolled record replaced. -/
def State.setStationState (s : State) (i : Slot) (q : StationState) : State :=
  s.updateStation i fun st => { st with state := q }

/-- The frames shed counter raised by 1 (R17). -/
def State.raiseShed (s : State) (i : Slot) : State :=
  s.updateStation i fun st => { st with framesShed := saturate16 st.framesShed }

/-- The non-VACANT record that holds an address (R4: at most one), with its slot. -/
def State.findAddress (s : State) (a : Address) : Option (Slot × Station) :=
  (List.finRange 64).findSome? fun i =>
    match s.station i with
    | some st => if st.address = a then some (i, st) else none
    | none => none

/-- The station in a slot when that record is non-VACANT and holds the address, else the event is void
(R80). -/
def State.matched (s : State) (i : Slot) (a : Address) : Option Station :=
  match s.station i with
  | some st => if st.address = a then some st else none
  | none => none

/-! ### NQ: posting, the head, taking (R188 to R194) -/

/-- The three classes, least urgent first by rank. -/
inductive NoticeClass where
  | info
  | routine
  | urgent
  deriving DecidableEq, Repr

/-- The rank of a class: URGENT is most urgent (R188). -/
def NoticeClass.rank : NoticeClass → Nat
  | .info => 0
  | .routine => 1
  | .urgent => 2

/-- The class a kind fixes (Table 11-2). -/
def NoticeKind.noticeClass : NoticeKind → NoticeClass
  | .wakeFailed => .urgent
  | .steerLinkDown => .urgent
  | .stationAsleep => .routine
  | .stationReturned => .routine
  | .wakeBegun => .routine
  | .stationRetired => .routine
  | .steerRefused => .routine
  | .modeChanged => .routine
  | .unknownAnnouncer => .info
  | .holdUnavailable => .info
  | .answerDropped => .info

/-- The class of a notice. -/
def Notice.noticeClass (n : Notice) : NoticeClass := n.kind.noticeClass

/-- A post: a kind, a slot and generation where the kind carries them, a detail (11.2). -/
structure Post where
  kind : NoticeKind
  subject : Option (Slot × Generation)
  detail : Detail
  deriving DecidableEq, Repr

/-- The coalescing key: the kind with the slot, or the kind alone (R188). -/
def Notice.key (n : Notice) : NoticeKind × Option Slot := (n.kind, n.subject.map (·.1))

/-- The coalescing key of a post. -/
def Post.key (p : Post) : NoticeKind × Option Slot := (p.kind, p.subject.map (·.1))

/-- R190: a notice with a post folded into it. -/
def Notice.coalesce (n : Notice) (p : Post) : Notice :=
  { n with subject := p.subject, detail := p.detail, repeatCount := saturate8 n.repeatCount 1 }

/-- R189: the post joins at the tail with the next stamp. -/
def Nq.join (q : Nq) (p : Post) : Nq :=
  { q with
    queue := q.queue ++ [{ kind := p.kind, subject := p.subject, detail := p.detail, repeatCount := 1#8,
                           stamp := q.stamp, age := 0#8 }]
    stamp := q.stamp + 1#16 }

/-- The least urgent class present in a queue. -/
def leastUrgent (queue : List Notice) : Option NoticeClass :=
  if queue.any (fun n => n.noticeClass = .info) then some .info
  else if queue.any (fun n => n.noticeClass = .routine) then some .routine
  else if queue.any (fun n => n.noticeClass = .urgent) then some .urgent
  else none

/-- The queue less the notice of class `c` that joined most recently (R191). -/
def evictNewest (c : NoticeClass) (queue : List Notice) : List Notice :=
  (queue.reverse.eraseP fun n => n.noticeClass = c).reverse

/-- R189 to R191: NQ takes a post. -/
def Nq.post (q : Nq) (p : Post) : Nq :=
  if q.queue.any (fun n => n.key = p.key) then
    { q with queue := q.queue.map fun n => if n.key = p.key then n.coalesce p else n }
  else if q.queue.length < Config.noticeCapacity then q.join p
  else
    match leastUrgent q.queue with
    | some c =>
      if c.rank < p.kind.noticeClass.rank then
        { q with queue := evictNewest c q.queue, overrun := true }.join p
      else { q with overrun := true }
    | none => { q with overrun := true }

/-- The most urgent class present in a queue. -/
def mostUrgent (queue : List Notice) : Option NoticeClass :=
  if queue.any (fun n => n.noticeClass = .urgent) then some .urgent
  else if queue.any (fun n => n.noticeClass = .routine) then some .routine
  else if queue.any (fun n => n.noticeClass = .info) then some .info
  else none

/-- R192: the head is the notice that joined earliest among those of the most urgent class present. -/
def Nq.head (q : Nq) : Option Notice :=
  match mostUrgent q.queue with
  | some c => q.queue.find? fun n => n.noticeClass = c
  | none => none

/-- R194: the head leaves the queue. -/
def Nq.dropHead (q : Nq) : Nq :=
  match mostUrgent q.queue with
  | some c => { q with queue := q.queue.eraseP fun n => n.noticeClass = c }
  | none => q

/-- A post with no slot. -/
def State.post (s : State) (kind : NoticeKind) (detail : Detail) : State :=
  { s with nq := s.nq.post { kind := kind, subject := none, detail := detail } }

/-- A post about a record: it carries the slot and the generation the record has (R13). -/
def State.postFor (s : State) (i : Slot) (kind : NoticeKind) (detail : Detail) : State :=
  { s with nq := s.nq.post { kind := kind, subject := some (i, s.generation i), detail := detail } }

/-! ### EMIT: appending, withdrawing, freeing (R131 to R138) -/

/-- The number of entries of the emission queue. -/
def Emit.size (e : Emit) : Nat := (if e.sending.isSome then 1 else 0) + e.waiting.length

/-- R133: the queue with an entry joined at its tail; none when it holds 16. -/
def Emit.append (e : Emit) (x : Entry) : Option Emit :=
  if e.size < Config.emissionCapacity then some { e with waiting := e.waiting ++ [x] } else none

/-- Whether an entry is a WAKE entry of this slot and address. -/
def Entry.isWakeOf (x : Entry) (i : Slot) (a : Address) : Bool := decide (x.kind = .wake i a)

/-- R137: the WAITING WAKE entries of a slot and address leave the queue. -/
def Emit.withdraw (e : Emit) (i : Slot) (a : Address) : Emit :=
  { e with waiting := e.waiting.filter fun x => !x.isWakeOf i a }

/-- R136: the resource of an ended entry is freed. -/
def State.freeResource (s : State) (k : EntryKind) : State :=
  match k with
  | .answer b => { s with resp := { s.resp with buffers := tset s.resp.buffers b none } }
  | .wake _ _ => s
  | .held b => { s with hold := tset s.hold b .free }
  | .pass j => { s with icls := { s.icls with slots := tset s.icls.slots j .free } }

/-- The resources of several ended entries are freed. -/
def State.freeResources : State → List Entry → State
  | s, [] => s
  | s, x :: rest => State.freeResources (s.freeResource x.kind) rest

/-- R138: every WAITING entry leaves the queue and its resource is freed. -/
def State.purge (s : State) : State :=
  { s with emit := { s.emit with waiting := [] } }.freeResources s.emit.waiting

/-- R137 asked of EMIT by STAB. -/
def State.withdrawWakes (s : State) (i : Slot) (a : Address) : State :=
  { s with emit := s.emit.withdraw i a }

/-! ### HOLD (R123, R127) -/

/-- The buffer is freed and its frame no longer kept. -/
def State.freeHeld (s : State) (b : Fin 16) : State := { s with hold := tset s.hold b .free }

/-- The held frame of a waking, if there is one, is discarded (R127). -/
def State.discardHeld (s : State) (held : Option (Fin 16)) : State :=
  match held with
  | some b => s.freeHeld b
  | none => s

/-! ### ICLS slots -/

/-- An intake slot is freed. -/
def State.freeIntake (s : State) (j : Fin 4) : State :=
  { s with icls := { s.icls with slots := tset s.icls.slots j .free } }

/-- The frame an intake slot holds. -/
def IntakeSlot.frame : IntakeSlot → Option Frame
  | .free => none
  | .arriving => none
  | .received _ => none
  | .unclassified f => some f
  | .triggered f => some f
  | .passing f => some f

/-- R94: a frame in intake slot `j` is handed on by pass-through to a station's port and segment, if the
emission queue has room; the slot stays occupied by the PASS entry. None when the queue is full. -/
def State.passThrough (s : State) (j : Fin 4) (f : Frame) (port : Port) (segment : Segment) : Option State :=
  match s.emit.append { kind := .pass j, port := port, segment := segment } with
  | some e => some { s with emit := e, icls := { s.icls with slots := tset s.icls.slots j (.passing f) } }
  | none => none

/-! ### WAKE (R111 to R117) -/

/-- R117: the waking context of a slot is removed and its timer stops. -/
def State.cancelWaking (s : State) (i : Slot) : State := { s with wake := tset s.wake i none }

/-- R114: the interval timer of a slot is started with WakeInterval. -/
def State.startInterval (s : State) (i : Slot) (a : Address) : State :=
  { s with wake := tset s.wake i (some { address := a, remaining := s.mport.settings.wakeInterval.toNat }) }

/-- R113: one attempt for a station, appended (the wake attempts raised by 1) or skipped. -/
def State.attempt (s : State) (i : Slot) (st : Station) (a : Address) : State :=
  match s.emit.append { kind := .wake i a, port := st.port, segment := st.segment } with
  | some e => { s with emit := e }.updateStation i fun t => { t with wakeAttempts := t.wakeAttempts + 1 }
  | none => s

/-! ### STEER: placing, cancelling, sending (R146 to R150) -/

/-- R148: a placement joins the tail in RUNNING and is discarded in every other mode. -/
def Steer.place (t : Steer) (r : SteerRequest) : Steer :=
  if t.mode = .running then { t with queue := t.queue ++ [r] } else t

/-- STAB places a DIVERT or RESTORE for an enrolled record (R22). -/
def State.place (s : State) (kind : SteerKind) (i : Slot) (st : Station) : State :=
  { s with steer := s.steer.place { kind := kind, slot := i, address := st.address, segment := st.segment, port := st.port } }

/-- Whether a request is of this kind for this slot. -/
def SteerRequest.isFor (r : SteerRequest) (kind : SteerKind) (i : Slot) : Bool :=
  decide (r.kind = kind) && decide (r.slot = i)

/-- The number Table 12-12 gives a request's kind. -/
def RequestBody.kindByte : RequestBody → Byte
  | .station r => match r.kind with
    | .divert => 1#8
    | .restore => 2#8
  | .clearAll => 3#8

/-- The kind of a request as a notice names it. -/
def RequestBody.kind : RequestBody → RequestKind
  | .station r => match r.kind with
    | .divert => .divert
    | .restore => .restore
  | .clearAll => .clearAll

/-- Bytes 2 to 14 of a request's message (Table 12-12). -/
def RequestBody.fields : RequestBody → List Byte
  | .station r =>
    beBytes 6 r.address.toNat ++ beBytes 2 r.segment.toNat ++
      [match r.kind with
       | .divert => 0#8
       | .restore => BitVec.ofNat 8 r.port.toNat] ++ List.replicate 4 0#8
  | .clearAll => List.replicate 13 0#8

/-- The 16 bytes of a request's message: kind, sequence, fields, check (R144, R208). -/
def requestMessage (body : RequestBody) (sequence : BitVec 4) : List Byte :=
  let bytes := [body.kindByte, sequence.setWidth 8] ++ body.fields
  bytes ++ [checkByte bytes]

/-- The message being sent on LTXD, if there is one, has ended (R144). -/
def Outputs.endMessage (o : Outputs) (e : MessageEnd) : Outputs :=
  { o with sending := none, steered := o.steered ++ (o.sending.map fun m => (m, e)).toList }

/-- A message begins on LTXD. STEER begins none while one is being sent (R144), so the one before has gone
whole (assumption log 19). -/
def Outputs.beginMessage (o : Outputs) (m : List Byte) : Outputs := { o.endMessage .whole with sending := some m }

/-- The message being sent, if there is one, has gone whole. -/
def State.endMessage (s : State) : State := { s with out := s.out.endMessage .whole }

/-- STEER begins a message on LTXD. -/
def State.transmit (s : State) (body : RequestBody) (sequence : BitVec 4) : State :=
  { s with out := s.out.beginMessage (requestMessage body sequence) }

/-- R146, R150, R158, R160: a new request is sent: it takes the counter's sequence, the counter is
raised by 1 modulo 16, its retries are 0 and the ack timer starts. -/
def State.sendNew (s : State) (body : RequestBody) : State :=
  { s with steer := { s.steer with
      inFlight := some { body := body, sequence := s.steer.sequence, retries := 0 }
      sequence := s.steer.sequence + 1#4
      ackTimer := some s.mport.settings.steerAckTimeout.toNat } }.transmit body s.steer.sequence

/-- R153, R156: the in-flight request is sent again with its own sequence and the timer restarts. -/
def State.resend (s : State) (f : InFlight) (retries : Nat) : State :=
  { s with steer := { s.steer with
      inFlight := some { f with retries := retries }
      ackTimer := some s.mport.settings.steerAckTimeout.toNat } }.transmit f.body f.sequence

/-! ### RESP: handing SLEEP_ACK jobs (R97) -/

/-- STAB decides a SLEEP_ACK for a record: the last acknowledgement is set (R10) and the job is handed
to RESP. -/
def State.decideAck (s : State) (i : Slot) (code : AckCode) (granted sequence : Half) : State :=
  match s.station i with
  | some st =>
    let s' := s.setStation i { st with lastAck := some (code, granted) }
    { s' with resp := { s'.resp with ackJobs := s'.resp.ackJobs ++
        [{ slot := i, address := st.address, port := st.port, segment := st.segment, code := code,
           sequence := sequence, granted := granted }] } }
  | none => s

end Sys2Proof.Machine
end

