-- ==== Sys2Proof/Machine/Flags.lean ====
section
/-! DEFINITION. The conditions of the two output pins, and the sticky flags of STATUS. -/

namespace Sys2Proof.Machine

/-- Whether a class is masked by NoticeClassMask: bit 0 URGENT, bit 1 ROUTINE, bit 2 INFO (Table 12-2). -/
def Settings.masks (c : Settings) (k : NoticeClass) : Bool :=
  match k with
  | .urgent => c.noticeClassMask.getLsbD 0
  | .routine => c.noticeClassMask.getLsbD 1
  | .info => c.noticeClassMask.getLsbD 2

/-- The notices of a queue whose class is not masked. -/
def unmasked (c : Settings) (queue : List Notice) : List Notice := queue.filter fun n => !c.masks n.noticeClass

/-- R196: a notice has reached its holdoff. -/
def Notice.pastHoldoff (c : Settings) (n : Notice) : Bool := decide (c.noticeHoldoff.toNat ≤ n.age.toNat)

/-- R197: the conditions of NINT. -/
def State.nintConditions (s : State) : Bool :=
  let c := s.mport.settings
  let q := unmasked c s.nq.queue
  decide (c.noticeTrigger.toNat ≤ q.length) || q.any (Notice.pastHoldoff c) ||
    q.any (fun n => decide (n.noticeClass = .urgent)) || s.nq.overrun || s.cmde.overrun

/-- R197: NINT is asserted while INT_ENABLE is 1 and at least one condition holds. -/
def State.nintAsserted (s : State) : Bool := s.mport.intEnable && s.nintConditions

/-- Whether an intake slot is free. -/
def IntakeSlot.isFree : IntakeSlot → Bool
  | .free => true
  | .arriving => false
  | .received _ => false
  | .unclassified _ => false
  | .triggered _ => false
  | .passing _ => false

/-- R76: the intake port is ready when the mode is RUNNING and at least one slot is free. -/
def State.readyForFrames (s : State) : Bool :=
  decide (s.steer.mode = .running) && (lowest IntakeSlot.isFree s.icls.slots).isSome

/-- The two output pins follow their conditions within every event (R197, R76). -/
def State.drivePins (s : State) : State :=
  { s with nint := s.nintAsserted, intakeReady := s.readyForFrames }

/-- The outcome of every meaning: the next state, with the pins driven. -/
def settle (s : State) : Host.Outcome State Fault Refusal := .next s.drivePins

/-- A sticky flag of STATUS. -/
def State.sticky (s : State) (f : StickyFlag) : Bool :=
  match f with
  | .cmdOverrun => s.cmde.overrun
  | .noticeOverrun => s.nq.overrun
  | .configRefused => s.mport.configRefused
  | .nameWriteRefused => s.mport.nameWriteRefused

/-- A sticky flag cleared by a write of 1 (00 7.6, R202). -/
def State.clearSticky (s : State) (f : StickyFlag) : State :=
  match f with
  | .cmdOverrun => { s with cmde := { s.cmde with overrun := false } }
  | .noticeOverrun => { s with nq := { s.nq with overrun := false } }
  | .configRefused => { s with mport := { s.mport with configRefused := false } }
  | .nameWriteRefused => { s with mport := { s.mport with nameWriteRefused := false } }

/-- CONFIG_REFUSED is set, or stays set (R204). -/
def State.refuseConfig (s : State) : State := { s with mport := { s.mport with configRefused := true } }

end Sys2Proof.Machine
end

