-- ==== Sys2Proof/Machine/Operands.lean ====
section
/-! DEFINITION. The byte layouts of chapter 12: the argument fields of a command record, the result records, the notice record, the fields of a frame, the frames RESP builds. -/

namespace Sys2Proof.Machine

/-! ### The command record (Table 12-4) -/

/-- The command code of a command record. -/
def commandCode (c : Memory) : Byte := Memory.read c 0

/-- The tag of a command record (R170). -/
def commandTag (c : Memory) : Byte := Memory.read c 1

/-- The slot byte of a handle. -/
def slotByte (c : Memory) : Nat := (Memory.read c 2).toNat

/-- The generation byte of a handle. -/
def generationByte (c : Memory) : Generation := Memory.read c 3

/-- The station address argument of STATION_CREATE and STATION_FIND. -/
def addressArgument (c : Memory) : Address := BitVec.ofNat 48 (Memory.field c 2 6)

/-- The identifier argument. -/
def identifierArgument (c : Memory) : Identifier := BitVec.ofNat 32 (Memory.field c 4 4)

/-- The rule number of a command on a rule list. -/
def listedRuleByte (c : Memory) : Nat := (Memory.read c 4).toNat

/-- The rule number of a rule command. -/
def ruleByte (c : Memory) : Nat := (Memory.read c 2).toNat

/-- The span list of RULE_DEFINE: the first `n` spans of four bytes from byte 9 on (R206). -/
def spanArguments (c : Memory) (n : Nat) : List Span :=
  (List.range n).map fun k => { offset := Memory.field c (9 + 4 * k) 2, length := Memory.field c (11 + 4 * k) 2 }

/-- R60: the validity of spans taken in order, from the end `after` of the span before. -/
def spansFollow : Nat → List Span → Bool
  | _, [] => true
  | after, x :: rest =>
    decide (x.offset ≤ 1535) && decide (1 ≤ x.length) && decide (x.length ≤ 64) &&
      decide (x.offset + x.length ≤ 1536) && decide (after ≤ x.offset) && spansFollow (x.offset + x.length) rest

/-- R60: the total length of a span list. -/
def spanTotal (spans : List Span) : Nat := (spans.map (·.length)).sum

/-- R60: the validity of a span list. -/
def spansValid (spans : List Span) : Bool :=
  decide (1 ≤ spans.length) && decide (spans.length ≤ 8) && spansFollow 0 spans && decide (spanTotal spans ≤ 256)

/-! ### The result record (Table 12-5) -/

/-- The number of a result code (Table 10-2). -/
def ResultCode.number : ResultCode → Byte
  | .ok => 0#8
  | .pending => 1#8
  | .badCommand => 2#8
  | .badArgument => 3#8
  | .staleHandle => 4#8
  | .notFound => 5#8
  | .tableFull => 6#8
  | .duplicateAddress => 7#8
  | .listFull => 8#8
  | .mapFull => 9#8
  | .duplicateIdentifier => 10#8
  | .duplicateRule => 11#8
  | .ruleUndefined => 12#8
  | .ruleDefined => 13#8
  | .ruleInUse => 14#8
  | .stateConflict => 15#8
  | .noTemplate => 16#8
  | .notRunning => 17#8
  | .linkDown => 18#8
  | .notDown => 19#8

/-- R170: the result record of a command, from byte 0 on. -/
def resultRecord (c : Memory) (r : Reply) : List Byte :=
  [commandCode c, commandTag c, r.code.number, BitVec.ofNat 8 r.data.length] ++ r.data

/-- `n` bytes: those given, then zeros. -/
def padTo (n : Nat) (bytes : List Byte) : List Byte := bytes ++ List.replicate (n - bytes.length) 0#8

/-- A handle as result data (R206). -/
def handleData (i : Slot) (g : Generation) : List Byte := [BitVec.ofNat 8 i.val, g]

/-- A flag as a byte. -/
def flagByte (b : Bool) : Byte := if b then 1#8 else 0#8

/-- The state codes of Table 12-6. -/
def StationState.code : StationState → Byte
  | .awake => 1#8
  | .entering _ => 2#8
  | .asleep _ => 3#8
  | .waking _ _ => 4#8
  | .leaving _ _ => 5#8
  | .lapsed => 6#8
  | .retiring => 7#8

/-- The number of a SLEEP_ACK result code (R104). -/
def AckCode.number : AckCode → Byte
  | .accepted => 0#8
  | .noTemplate => 1#8
  | .notRunning => 2#8
  | .linkDown => 3#8
  | .steerRefused => 4#8
  | .inTransition => 5#8
  | .retiring => 6#8

/-- The wake cause as kind and value, five bytes (Table 12-6). -/
def WakeCause.bytes : WakeCause → List Byte
  | .lease => [1#8, 0#8, 0#8, 0#8, 0#8]
  | .rule n => [2#8, 0#8, 0#8, 0#8, BitVec.ofNat 8 n.val]
  | .query id => 3#8 :: beBytes 4 id.toNat
  | .command => [4#8, 0#8, 0#8, 0#8, 0#8]

/-- The lease remaining of a record (R8). -/
def StationState.leaseRemaining : StationState → Option Half
  | .asleep (some l) => some l.remaining
  | _ => none

/-- The pending acknowledgement of a record (R9). -/
def StationState.pendingAck : StationState → Option (Half × Half)
  | .entering (.announced sequence lease) => some (sequence, lease)
  | _ => none

/-- The command lease of a record (R9). -/
def StationState.commandLease : StationState → Option Half
  | .entering (.commanded lease) => some lease
  | _ => none

/-- The wake cause of a record (R11). -/
def StationState.wakeCause : StationState → Option WakeCause
  | .waking cause _ => some cause
  | .leaving _ cause => cause
  | _ => none

/-- The held frame of a record (R11). -/
def StationState.heldFrame : StationState → Option (Fin 16)
  | .waking _ held => held
  | _ => none

/-- The leave reason of a record (R11). -/
def StationState.leaveReason : StationState → Option LeaveReason
  | .leaving reason _ => some reason
  | _ => none

/-- The leave reason codes of Table 12-6. -/
def LeaveReason.number : LeaveReason → Byte
  | .confirmed => 1#8
  | .exhausted => 2#8

/-- The presence byte of Table 12-6. -/
def presenceByte (st : Station) : Byte :=
  let bit (k : Nat) (b : Bool) : Nat := if b then 2 ^ k else 0
  BitVec.ofNat 8 (bit 0 st.state.leaseRemaining.isSome + bit 1 st.lastSequence.isSome + bit 2 st.lastAck.isSome +
    bit 3 st.state.pendingAck.isSome + bit 4 st.state.commandLease.isSome + bit 5 st.state.wakeCause.isSome +
    bit 6 st.state.heldFrame.isSome + bit 7 st.state.leaveReason.isSome)

/-- A 16-bit value as two bytes. -/
def halfBytes (h : Half) : List Byte := beBytes 2 h.toNat

/-- An optional 16-bit value as two bytes, zero when absent. -/
def optionalHalf (h : Option Half) : List Byte := halfBytes (h.getD 0#16)

/-- Offsets 193 to 220 of Table 12-6: the presence byte, the optional fields, the wake attempts and the
counters. -/
def optionalFields (st : Station) : List Byte :=
  [presenceByte st] ++ optionalHalf st.state.leaseRemaining ++ optionalHalf st.lastSequence ++
    (match st.lastAck with
     | some (code, granted) => code.number :: halfBytes granted
     | none => [0#8, 0#8, 0#8]) ++
    (match st.state.pendingAck with
     | some (sequence, lease) => halfBytes sequence ++ halfBytes lease
     | none => [0#8, 0#8, 0#8, 0#8]) ++
    optionalHalf st.state.commandLease ++
    (match st.state.wakeCause with
     | some cause => cause.bytes
     | none => [0#8, 0#8, 0#8, 0#8, 0#8]) ++
    [BitVec.ofNat 8 st.wakeAttempts] ++
    [match st.state.heldFrame with
     | some b => BitVec.ofNat 8 b.val
     | none => 0#8] ++
    [match st.state.leaveReason with
     | some r => r.number
     | none => 0#8] ++
    halfBytes st.answersSent ++ halfBytes st.wakesBegun ++ halfBytes st.framesShed

/-- R19, Table 12-6: the result data of STATION_READ. -/
def stationData (i : Slot) (g : Generation) (st : Station) : List Byte :=
  handleData i g ++ [st.state.code] ++ beBytes 6 st.address.toNat ++ [BitVec.ofNat 8 st.port.toNat] ++
    beBytes 2 st.segment.toNat ++ halfBytes st.defaultLease ++ [BitVec.ofNat 8 st.identifiers.length] ++
    padTo 40 (st.identifiers.flatMap fun l => beBytes 4 l.identifier.toNat ++ [flagByte l.wakeOnQuery]) ++
    [BitVec.ofNat 8 st.rules.length] ++ padTo 8 (st.rules.map fun n => BitVec.ofNat 8 n.val) ++
    [BitVec.ofNat 8 (st.template.getD []).length] ++ padTo 128 (st.template.getD []) ++ optionalFields st

/-- The scope codes of Table 12-7. -/
def Scope.number : Scope → Byte
  | .directed => 1#8
  | .any => 2#8

/-- R71, Table 12-7: the result data of RULE_READ. -/
def ruleData (n : RuleNumber) (r : Rule) : List Byte :=
  match r.body with
  | none => padTo 41 [BitVec.ofNat 8 n.val, 0#8, BitVec.ofNat 8 r.refCount]
  | some b =>
    [BitVec.ofNat 8 n.val, 1#8, BitVec.ofNat 8 r.refCount, b.scope.number, BitVec.ofNat 8 b.spans.length] ++
      beBytes 4 b.digest.toNat ++ padTo 32 (b.spans.flatMap fun x => beBytes 2 x.offset ++ beBytes 2 x.length)

/-! ### The notice record (Tables 12-8, 12-9) -/

/-- The kind codes of Table 12-8. -/
def NoticeKind.number : NoticeKind → Byte
  | .wakeFailed => 1#8
  | .steerLinkDown => 2#8
  | .stationAsleep => 3#8
  | .stationReturned => 4#8
  | .wakeBegun => 5#8
  | .stationRetired => 6#8
  | .steerRefused => 7#8
  | .modeChanged => 8#8
  | .unknownAnnouncer => 9#8
  | .holdUnavailable => 10#8
  | .answerDropped => 11#8

/-- The class codes of Table 12-8. -/
def NoticeClass.number : NoticeClass → Byte
  | .urgent => 1#8
  | .routine => 2#8
  | .info => 3#8

/-- The request kind codes of Table 12-9. -/
def RequestKind.number : RequestKind → Byte
  | .divert => 1#8
  | .restore => 2#8
  | .clearAll => 3#8

/-- The reason codes of Table 12-9. -/
def reasonNumber : NakReason → Byte
  | .full => 1#8
  | .unknown => 2#8
  | .malformed => 3#8

/-- The mode codes of STATUS (12.2). -/
def Mode.number : Mode → Nat
  | .stopped => 0
  | .starting => 1
  | .running => 2
  | .stopping => 3

/-- The link state codes of STATUS (12.2). -/
def LinkState.number : LinkState → Nat
  | .idle => 0
  | .up => 1
  | .down => 2

/-- The answer kind codes of Table 12-9. -/
def DroppedAnswer.number : DroppedAnswer → Byte
  | .reply => 1#8
  | .probeReply => 2#8
  | .sleepAck => 3#8

/-- The drop cause codes of Table 12-9. -/
def DropCause.number : DropCause → Byte
  | .noBuffer => 1#8
  | .noPlace => 2#8
  | .unconfigured => 3#8

/-- Table 12-9: the detail bytes. -/
def Detail.bytes : Detail → List Byte
  | .none => []
  | .cause c => c.bytes
  | .request kind sequence => [kind.number, sequence.setWidth 8]
  | .lease effective => halfBytes effective
  | .refusal kind reason => [kind.number, reasonNumber reason]
  | .mode m => [BitVec.ofNat 8 m.number]
  | .address a => beBytes 6 a.toNat
  | .rule n => [BitVec.ofNat 8 n.val]
  | .drop answer why => [answer.number, why.number]

/-- Table 12-8: the 16-byte record of a notice. -/
def Notice.record (n : Notice) : List Byte :=
  [n.kind.number, n.noticeClass.number] ++
    (match n.subject with
     | some (i, g) => [BitVec.ofNat 8 i.val, g]
     | none => [0xFF#8, 0#8]) ++
    [n.repeatCount, n.age] ++ halfBytes n.stamp ++ padTo 8 n.detail.bytes

/-- R193, R194: the record the notice windows show: the head's, or kind NONE with every field zero. -/
def Nq.window (q : Nq) : List Byte :=
  match q.head with
  | some n => n.record
  | none => List.replicate Config.noticeRecordSize 0#8

/-! ### Frames (12.7) -/

/-- The destination address of a frame. -/
def frameDestination (bytes : List Byte) : Address := BitVec.ofNat 48 (fieldAt bytes 0 6)

/-- The source address of a frame. -/
def frameSource (bytes : List Byte) : Address := BitVec.ofNat 48 (fieldAt bytes 6 6)

/-- The type of a frame. -/
def frameType (bytes : List Byte) : Half := BitVec.ofNat 16 (fieldAt bytes 12 2)

/-- The op byte of a payload. -/
def payloadOp (bytes : List Byte) : Nat := (byteAt bytes 14).toNat

/-- The sequence of an announcement payload (Table 12-11). -/
def announcedSequence (bytes : List Byte) : Half := BitVec.ofNat 16 (fieldAt bytes 16 2)

/-- The lease of an announcement payload (Table 12-11). -/
def announcedLease (bytes : List Byte) : Half := BitVec.ofNat 16 (fieldAt bytes 18 2)

/-- The sender address of a query payload (Table 12-10). -/
def querySender (bytes : List Byte) : Address := BitVec.ofNat 48 (fieldAt bytes 16 6)

/-- The sender identifier of a query payload (Table 12-10). -/
def querySenderIdentifier (bytes : List Byte) : Identifier := BitVec.ofNat 32 (fieldAt bytes 22 4)

/-- The target identifier of a query payload (Table 12-10). -/
def queryTarget (bytes : List Byte) : Identifier := BitVec.ofNat 32 (fieldAt bytes 26 4)

/-- The header of a frame: destination, source, type. -/
def frameHeader (destination source : Address) (type : Half) : List Byte :=
  beBytes 6 destination.toNat ++ beBytes 6 source.toNat ++ halfBytes type

/-- R102, R103, R105: a REPLY or PROBE_REPLY of 60 bytes. The proxied indication is bit 7 of the flags. -/
def answerFrame (job : AnswerJob) (type : Half) (op stateCode : Byte)
    (senderIdentifier targetIdentifier : Identifier) : List Byte :=
  padTo Config.answerLength (frameHeader job.sender job.address type ++ [op, 0x80#8 ||| stateCode] ++
    beBytes 6 job.address.toNat ++ beBytes 4 senderIdentifier.toNat ++ beBytes 4 targetIdentifier.toNat)

/-- R104, R105: a SLEEP_ACK of 60 bytes. -/
def sleepAckFrame (job : AckJob) (partAddress : Address) (type : Half) : List Byte :=
  padTo Config.answerLength (frameHeader job.address partAddress type ++ [3#8, job.code.number] ++
    halfBytes job.sequence ++ halfBytes job.granted)

end Sys2Proof.Machine
end

