-- ==== Sys2Proof/Machine/Stations.lean ====
section
/-! DEFINITION. The events of Station States (02), each written once: STAB's rules, shared by the commands and the announcements that cause them. -/

namespace Sys2Proof.Machine

/-! ### Leases (R24) -/

/-- The effective lease of a request: the request's own, or the default lease for 0. -/
def effectiveLease (requested defaultLease : Half) : Half := if requested = 0#16 then defaultLease else requested

/-- The lease an effective lease starts: none for 0. -/
def startLease (effective : Half) : Option LeaseRun :=
  if effective = 0#16 then none else some { remaining := effective, runOut := false }

/-- The requested lease of a sleep entry's origin (R9). -/
def SleepOrigin.requested : SleepOrigin → Half
  | .announced _ lease => lease
  | .commanded lease => lease

/-! ### Vacancy (R23) -/

/-- R56: the map less the entries of a station's identifiers on its segment. -/
def removeMapped (idmap : List MapEntry) (segment : Segment) (listed : List ListedIdentifier) : List MapEntry :=
  idmap.filter fun e => !(decide (e.segment = segment) && listed.any fun l => decide (l.identifier = e.identifier))

/-- The reference count of one rule changed by `f`. -/
def updateCount (rules : Vector Rule 96) (n : RuleNumber) (f : Nat → Nat) : Vector Rule 96 :=
  tset rules n { rules[n.val] with refCount := f rules[n.val].refCount }

/-- R66: the reference count of every rule of a list lowered by 1. -/
def lowerCounts : Vector Rule 96 → List RuleNumber → Vector Rule 96
  | rules, [] => rules
  | rules, n :: rest => lowerCounts (updateCount rules n (· - 1)) rest

/-- R23: the record of slot `i` becomes VACANT with the vacancy clean-up. STATION_RETIRED carries the
generation before the raise. -/
def State.vacate (s : State) (i : Slot) (st : Station) : State :=
  { (s.postFor i .stationRetired .none) with
    idmap := removeMapped s.idmap st.segment st.identifiers
    rstore := lowerCounts s.rstore st.rules }.setRecord i
      { generation := s.generation i + 1#8, station := none }

/-! ### Cancelling a DIVERT (R149) -/

/-- STEER's answer to a cancel. -/
inductive CancelAnswer where
  | cancelled
  | inFlight
  deriving DecidableEq, Repr

/-- Whether the in-flight request is of this kind for this slot. -/
def Steer.inFlightFor (t : Steer) (kind : SteerKind) (i : Slot) : Bool :=
  match t.inFlight with
  | some f => match f.body with
    | .station r => r.isFor kind i
    | .clearAll => false
  | none => false

/-- R149: the unsent DIVERT of a slot is removed and the answer is "cancelled"; an in-flight DIVERT is
left and the answer is "in flight". With neither, which R149 says does not arise, the answer is
"cancelled" (assumption log 14). -/
def Steer.cancelDivert (t : Steer) (i : Slot) : Steer × CancelAnswer :=
  if t.queue.any (fun r => r.isFor .divert i) then
    ({ t with queue := t.queue.eraseP fun r => r.isFor .divert i }, .cancelled)
  else if t.inFlightFor .divert i then (t, .inFlight)
  else (t, .cancelled)

/-! ### Awake confirmation (2.3) -/

/-- R126: the held frame of an ended waking is appended as a HELD entry to the station's port and
segment, or shed when the emission queue is full. -/
def State.releaseHeld (s : State) (i : Slot) (st : Station) (held : Option (Fin 16)) : State :=
  match held with
  | none => s
  | some b =>
    match s.emit.append { kind := .held b, port := st.port, segment := st.segment } with
    | some e =>
      { s with
        emit := e
        hold := match s.hold[b.val] with
          | .reserved bytes => tset s.hold b (.queued bytes)
          | .free | .queued _ => s.hold }
    | none => (s.freeHeld b).raiseShed i

/-- R26: the confirmation of a WAKING record. -/
def State.confirmWaking (s : State) (i : Slot) (st : Station) (cause : WakeCause) (held : Option (Fin 16)) : State :=
  ((((s.cancelWaking i).withdrawWakes i st.address).releaseHeld i st held).setStationState i
    (.leaving .confirmed (some cause))).place .restore i st

/-- R27: the confirmation of an ENTERING record. -/
def State.confirmEntering (s : State) (i : Slot) (st : Station) : State :=
  match s.steer.cancelDivert i with
  | (t, .cancelled) => ({ s with steer := t }.setStationState i .awake).postFor i .stationReturned .none
  | (t, .inFlight) =>
    ({ s with steer := t }.setStationState i (.leaving .confirmed none)).place .restore i st

/-- R25 to R28: an awake confirmation at the record of slot `i`. -/
def State.confirmAwake (s : State) (i : Slot) : State :=
  match s.station i with
  | none => s
  | some st =>
    match st.state with
    | .asleep _ => (s.setStationState i (.leaving .confirmed none)).place .restore i st
    | .waking cause held => s.confirmWaking i st cause held
    | .entering _ => s.confirmEntering i st
    | .leaving .exhausted cause => s.setStationState i (.leaving .confirmed cause)
    | .leaving .confirmed _ => s
    | .lapsed => (s.setStationState i .awake).postFor i .stationReturned .none
    | .awake => s
    | .retiring => s

/-! ### Sleep requests (2.4) -/

/-- The checks of R29 that can fail (R30). -/
inductive SleepRefusal where
  | notRunning
  | linkDown
  | noTemplate
  deriving DecidableEq, Repr

/-- The SLEEP_ACK code of a failed check (R30). -/
def SleepRefusal.asAck : SleepRefusal → AckCode
  | .notRunning => .notRunning
  | .linkDown => .linkDown
  | .noTemplate => .noTemplate

/-- The result code of STATION_SLEEP for a failed check (R30). -/
def SleepRefusal.asResult : SleepRefusal → ResultCode
  | .notRunning => .notRunning
  | .linkDown => .linkDown
  | .noTemplate => .noTemplate

/-- R29: the first failed check of a sleep request that finds the record AWAKE or LAPSED. -/
def State.sleepCheck (s : State) (st : Station) : Option SleepRefusal :=
  if s.steer.mode ≠ .running then some .notRunning
  else if s.steer.link ≠ .up then some .linkDown
  else if st.template.isNone then some .noTemplate
  else none

/-- R29: the record moves to ENTERING with the origin of the request, and a DIVERT is placed. -/
def State.enterSleep (s : State) (i : Slot) (st : Station) (origin : SleepOrigin) : State :=
  (s.setStationState i (.entering origin)).place .divert i st

/-- R29, R30: the announcement form at an AWAKE record. -/
def State.sleepFromAwake (s : State) (i : Slot) (st : Station) (sequence lease : Half) : State :=
  match s.sleepCheck st with
  | some refusal => s.decideAck i refusal.asAck 0#16 sequence
  | none => s.enterSleep i st (.announced sequence lease)

/-- R29 to R33: a SLEEP announcement classed as new, as a sleep request. -/
def State.sleepAnnounced (s : State) (i : Slot) (sequence lease : Half) : State :=
  match s.station i with
  | none => s
  | some st =>
    match st.state with
    | .awake => s.sleepFromAwake i st sequence lease
    | .lapsed => (s.confirmAwake i).sleepFromAwake i st sequence lease
    | .entering _ => s.setStationState i (.entering (.announced sequence lease))
    | .asleep _ =>
      let effective := effectiveLease lease st.defaultLease
      (s.setStationState i (.asleep (startLease effective))).decideAck i .accepted effective sequence
    | .waking _ _ => (s.confirmAwake i).decideAck i .inTransition 0#16 sequence
    | .leaving .exhausted _ => (s.confirmAwake i).decideAck i .inTransition 0#16 sequence
    | .leaving .confirmed _ => s.decideAck i .inTransition 0#16 sequence
    | .retiring => s.decideAck i .retiring 0#16 sequence

/-- R29 to R33, R178: STATION_SLEEP as a sleep request of the command form. -/
def State.sleepCommanded (s : State) (i : Slot) (st : Station) (lease : Half) : State × ResultCode :=
  match st.state with
  | .awake | .lapsed =>
    match s.sleepCheck st with
    | some refusal => (s, refusal.asResult)
    | none => (s.enterSleep i st (.commanded lease), .pending)
  | .entering _ => (s, .ok)
  | .asleep _ => (s.setStationState i (.asleep (startLease (effectiveLease lease st.defaultLease))), .ok)
  | .waking _ _ => (s, .stateConflict)
  | .leaving _ _ => (s, .stateConflict)
  | .retiring => (s, .stateConflict)

/-! ### Steering outcomes (2.5) -/

/-- R34: a DIVERT ACK at the record. -/
def State.divertAck (s : State) (i : Slot) : State :=
  match s.station i with
  | none => s
  | some st =>
    match st.state with
    | .entering origin =>
      let effective := effectiveLease origin.requested st.defaultLease
      let asleep := s.setStationState i (.asleep (startLease effective))
      let acked := match origin with
        | .announced sequence _ => asleep.decideAck i .accepted effective sequence
        | .commanded _ => asleep
      acked.postFor i .stationAsleep (.lease effective)
    | .leaving _ _ => s
    | .awake => s
    | .asleep _ => s
    | .waking _ _ => s
    | .lapsed => s
    | .retiring => s

/-- R35: a DIVERT NAK at the record. -/
def State.divertNak (s : State) (i : Slot) (reason : NakReason) : State :=
  match s.station i with
  | none => s
  | some st =>
    match st.state with
    | .entering origin =>
      let awake := s.setStationState i .awake
      let acked := match origin with
        | .announced sequence _ => awake.decideAck i .steerRefused 0#16 sequence
        | .commanded _ => awake
      acked.postFor i .steerRefused (.refusal .divert reason)
    | .leaving _ _ => (s.setStationState i .awake).postFor i .steerRefused (.refusal .divert reason)
    | .awake => s
    | .asleep _ => s
    | .waking _ _ => s
    | .lapsed => s
    | .retiring => s

/-- R36: the diversion of the record is gone. -/
def State.restoreOutcome (s : State) (i : Slot) : State :=
  match s.station i with
  | none => s
  | some st =>
    match st.state with
    | .leaving .confirmed _ => (s.setStationState i .awake).postFor i .stationReturned .none
    | .leaving .exhausted _ => s.setStationState i .lapsed
    | .retiring => s.vacate i st
    | .awake => s
    | .entering _ => s
    | .asleep _ => s
    | .waking _ _ => s
    | .lapsed => s

/-- R36: a RESTORE NAK: the outcome, and in addition STEER_REFUSED with the generation the record had
when the outcome reached it (assumption log 15). -/
def State.restoreNak (s : State) (i : Slot) (reason : NakReason) : State :=
  let t := s.restoreOutcome i
  { t with nq := t.nq.post { kind := .steerRefused, subject := some (i, s.generation i),
                             detail := .refusal .restore reason } }

/-! ### Waking (2.6, 7.1, 7.2) -/

/-- R112: WAKE begins a waking: the context, the first attempt, the interval timer. -/
def State.beginWaking (s : State) (i : Slot) (st : Station) : State :=
  (s.attempt i st st.address).startInterval i st.address

/-- R123, R124: HOLD takes the frame of intake slot `j` for the waking of slot `i`, or
HOLD_UNAVAILABLE is posted. -/
def State.holdFrame (s : State) (i : Slot) (cause : WakeCause) (bytes : List Byte) : State :=
  match lowest (fun b => decide (b = HeldBuffer.free)) s.hold with
  | some b => { s with hold := tset s.hold b (.reserved bytes) }.setStationState i (.waking cause (some b))
  | none =>
    match cause with
    | .rule n => s.postFor i .holdUnavailable (.rule n)
    | .lease => s
    | .query _ => s
    | .command => s

/-- R37: a wake trigger at an ASLEEP record, without the frame it may carry. -/
def State.wakeUp (s : State) (i : Slot) (st : Station) (cause : WakeCause) : State :=
  (((s.setStation i { st with state := .waking cause none, wakeAttempts := 0,
                              wakesBegun := saturate16 st.wakesBegun }).postFor i .wakeBegun
      (.cause cause)).beginWaking i st)

/-- R38: what becomes of the STEERED frame of a trigger taken in a pass-through state. -/
def State.passOrShed (s : State) (i : Slot) (st : Station) (j : Fin 4) (f : Frame) : State :=
  match s.passThrough j f st.port st.segment with
  | some t => t
  | none => (s.freeIntake j).raiseShed i

/-- R37, R38: a wake trigger from ICLS at the record of slot `i`, carrying the STEERED frame of an
intake slot or none. With no buffer free WAKE_BEGUN is posted first and HOLD_UNAVAILABLE after it; the rules give
the two no order (DESIGN CHOICE, assumption log 15). -/
def State.iclsTrigger (s : State) (i : Slot) (st : Station) (cause : WakeCause) (frame : Option (Fin 4)) : State :=
  match st.state, frame with
  | .asleep _, none => s.wakeUp i st cause
  | .asleep _, some j =>
    let bytes := match s.icls.slots[j.val].frame with
      | some f => f.bytes
      | none => []
    ((s.wakeUp i st cause).holdFrame i cause bytes).freeIntake j
  | .waking _ _, none => s
  | .waking _ _, some j => (s.freeIntake j).raiseShed i
  | _, none => s
  | _, some j =>
    match s.icls.slots[j.val].frame with
    | some f => s.passOrShed i st j f
    | none => s.freeIntake j

/-- R37, R38, R179: STATION_WAKE as a wake trigger. -/
def State.wakeCommanded (s : State) (i : Slot) (st : Station) : State × ResultCode :=
  match st.state with
  | .asleep _ => (s.wakeUp i st .command, .ok)
  | .waking _ _ => (s, .ok)
  | .awake => (s, .stateConflict)
  | .entering _ => (s, .stateConflict)
  | .leaving _ _ => (s, .stateConflict)
  | .lapsed => (s, .stateConflict)
  | .retiring => (s, .stateConflict)

/-- R40: a wake exhaustion at the record. -/
def State.exhaustWaking (s : State) (i : Slot) : State :=
  match s.station i with
  | none => s
  | some st =>
    match st.state with
    | .waking cause held =>
      ((((s.discardHeld held).withdrawWakes i st.address).setStationState i
        (.leaving .exhausted (some cause))).place .restore i st).postFor i .wakeFailed (.cause cause)
    | .awake => s
    | .entering _ => s
    | .asleep _ => s
    | .leaving _ _ => s
    | .lapsed => s
    | .retiring => s

/-! ### Retirement (2.7) -/

/-- R41 to R43, R180: STATION_RETIRE at the record. -/
def State.retire (s : State) (i : Slot) (st : Station) : State × ResultCode :=
  match st.state with
  | .awake => (s.vacate i st, .ok)
  | .lapsed => (s.vacate i st, .ok)
  | .asleep _ => ((s.setStationState i .retiring).place .restore i st, .pending)
  | .waking _ held =>
    (((((s.cancelWaking i).withdrawWakes i st.address).discardHeld held).setStationState i .retiring).place
      .restore i st, .pending)
  | .retiring => (s, .ok)
  | .entering _ => (s, .stateConflict)
  | .leaving _ _ => (s, .stateConflict)

/-! ### The stop teardown (2.8) -/

/-- R44: the teardown at one record. -/
def State.teardownAt (s : State) (i : Slot) : State :=
  match s.station i with
  | none => s
  | some st =>
    match st.state with
    | .entering _ => s.setStationState i .awake
    | .asleep _ => s.setStationState i .lapsed
    | .waking _ held => ((s.cancelWaking i).discardHeld held).setStationState i .lapsed
    | .leaving .confirmed _ => s.setStationState i .awake
    | .leaving .exhausted _ => s.setStationState i .lapsed
    | .retiring => s.vacate i st
    | .awake => s
    | .lapsed => s

/-- R44: the teardown reaches every record, slot 0 first (assumption log 16). -/
def State.teardown (s : State) : State := (List.finRange 64).foldl State.teardownAt s

/-! ### Announcements (R86 to R88) -/

/-- How STAB classes an announcement by its sequence (R86). -/
inductive SequenceClass where
  | new
  | repeated
  | old
  deriving DecidableEq, Repr

/-- R86: the class of sequence `s` against the record's last sequence. -/
def sequenceClass (last : Option Half) (s : Half) : SequenceClass :=
  match last with
  | none => .new
  | some l =>
    let d := (s - l).toNat
    if d = 0 then .repeated else if d ≤ 32767 then .new else .old

/-- R88: a repeated announcement. -/
def State.repeatAnnounced (s : State) (i : Slot) (st : Station) (op : AnnounceOp) (sequence : Half) : State :=
  match op, st.state, st.lastAck with
  | .awake, _, _ => s
  | .sleep, .entering _, _ => s
  | .sleep, _, none => s
  | .sleep, _, some (code, granted) =>
    { s with resp := { s.resp with ackJobs := s.resp.ackJobs ++
        [{ slot := i, address := st.address, port := st.port, segment := st.segment, code := code,
           sequence := sequence, granted := granted }] } }

/-- R86 to R88: STAB takes a known announcer's announcement. -/
def State.takeAnnouncement (s : State) (i : Slot) (st : Station) (op : AnnounceOp) (sequence lease : Half) : State :=
  match sequenceClass st.lastSequence sequence with
  | .old => s
  | .repeated => s.repeatAnnounced i st op sequence
  | .new =>
    let t := s.setStation i { st with lastSequence := some sequence }
    match op with
    | .sleep => t.sleepAnnounced i sequence lease
    | .awake => t.confirmAwake i

end Sys2Proof.Machine
end

