-- ==== Sys2Proof/Machine/Steering.lean ====
section
/-! DEFINITION. STEER (09): starts and stops, the steering queue, answers, timeouts, the receiver of the link. -/

namespace Sys2Proof.Machine

/-! ### Starting and stopping (9.5) -/

/-- R158: a start: STARTING, the link UP, a CLEAR_ALL in flight. A deferred start is then not taken
(R161). -/
def State.startPart (s : State) : State :=
  { s with steer := { s.steer with mode := .starting, link := .up, deferredStart := false } }.sendNew .clearAll

/-- R158: RUN cleared in STARTING. -/
def State.abandonStart (s : State) : State :=
  { s with steer := { s.steer with mode := .stopped, link := .idle, inFlight := none, ackTimer := none } }.post
    .modeChanged (.mode .stopped)

/-- R160: the stop, one mode change event, its effects in the rule's order. -/
def State.beginStop (s : State) : State :=
  let t := { s with steer := { s.steer with mode := .stopping, queue := [], inFlight := none, ackTimer := none } }
  let u := t.teardown.purge
  { u with steer := { u.steer with link := .up } }.sendNew .clearAll

/-- R161: the arrival in STOPPED: nothing in flight, the link IDLE, MODE_CHANGED, and a deferred start
when RUN reads 1, be it that a write with SOFT_RESET has stored it (DESIGN CHOICE, assumption log 31). -/
def State.arriveStopped (s : State) : State :=
  { s with steer := { s.steer with mode := .stopped, link := .idle, inFlight := none, ackTimer := none,
                                   deferredStart := s.mport.run } }.post .modeChanged (.mode .stopped)

/-- R157: RUN set, by the mode it finds. -/
def State.takeRunSet (s : State) : State :=
  match s.steer.mode with
  | .stopped => s.startPart
  | .starting => s
  | .running => s
  | .stopping => s

/-- R157: RUN cleared, by the mode it finds. In STOPPED it cancels a deferred start (R161). -/
def State.takeRunCleared (s : State) : State :=
  match s.steer.mode with
  | .stopped => { s with steer := { s.steer with deferredStart := false } }
  | .starting => s.abandonStart
  | .running => s.beginStop
  | .stopping => s

/-- Whether an issued event is a change of RUN. -/
def PortEvent.isRun : PortEvent → Bool
  | .runSet => true
  | .runCleared => true
  | .go => false
  | .clear _ => false
  | .softReset => false

/-- The first change of RUN issued and not yet taken. -/
def Mport.nextRun (m : Mport) : Option PortEvent := m.issued.find? PortEvent.isRun

/-- An issued event is taken from the list. -/
def Mport.takeIssued (m : Mport) (e : PortEvent) : Mport := { m with issued := m.issued.erase e }

/-- DEFERRED_START (R161): taken only if RUN reads 1 when STEER takes it. It is taken as well between a write with
SOFT_RESET and its soft reset (DESIGN CHOICE, assumption log 31). -/
def execDeferredStart (s : State) : Host.Outcome State Fault Refusal :=
  if s.steer.deferredStart = true ∧ s.steer.mode = .stopped ∧ s.mport.run = true then settle s.startPart
  else settle { s with steer := { s.steer with deferredStart := false } }

/-! ### Sending (9.3) -/

/-- STEER_SEND (R150): the head of the queue is sent when the mode is RUNNING, the link UP and nothing
in flight. -/
def execSteerSend (s : State) : Host.Outcome State Fault Refusal :=
  match s.steer.queue with
  | [] => settle s
  | r :: rest =>
    if s.steer.mode = .running ∧ s.steer.link = .up ∧ s.steer.inFlight = none then
      settle ({ s with steer := { s.steer with queue := rest } }.sendNew (.station r))
    else settle s

/-! ### Answers (9.4) -/

/-- The answer of the switch to a request. -/
inductive Verdict where
  | ack
  | nak (reason : NakReason)
  deriving DecidableEq, Repr

/-- R152: STEER's part of an outcome: the timer stops, nothing is in flight, and a NAK of a DIVERT
removes the unsent RESTORE of its slot. -/
def Steer.resolve (t : Steer) (r : SteerRequest) (v : Verdict) : Steer :=
  { t with
    inFlight := none
    ackTimer := none
    queue := match r.kind, v with
      | .divert, .nak _ => t.queue.eraseP fun q => q.isFor .restore r.slot
      | .divert, .ack => t.queue
      | .restore, _ => t.queue }

/-- R152, R34 to R36: the outcome of an in-flight DIVERT or RESTORE, at STEER and at the record. -/
def State.stationOutcome (s : State) (r : SteerRequest) (v : Verdict) : State :=
  let t := { s with steer := s.steer.resolve r v }
  match r.kind, v with
  | .divert, .ack => t.divertAck r.slot
  | .divert, .nak reason => t.divertNak r.slot reason
  | .restore, .ack => t.restoreOutcome r.slot
  | .restore, .nak reason => t.restoreNak r.slot reason

/-- R158, R161: the outcome of a CLEAR_ALL. In a mode that sends none (no run reaches it, assumption log
14) it only resolves the request. -/
def State.clearAllOutcome (s : State) : State :=
  match s.steer.mode with
  | .starting =>
    { s with steer := { s.steer with mode := .running, inFlight := none, ackTimer := none } }.post
      .modeChanged (.mode .running)
  | .stopping => s.arriveStopped
  | .stopped => { s with steer := { s.steer with inFlight := none, ackTimer := none } }
  | .running => { s with steer := { s.steer with inFlight := none, ackTimer := none } }

/-- R151: the in-flight request an answer with this sequence byte matches: byte 1 is compared whole
(R208), and nothing matches in STOPPED. -/
def Steer.matching (t : Steer) (sequence : Byte) : Option InFlight :=
  if t.mode = .stopped then none
  else match t.inFlight with
    | some f => if f.sequence.setWidth 8 = sequence then some f else none
    | none => none

/-- R151: an answer is taken as the outcome of the in-flight request it matches, or discarded. -/
def State.takeAnswer (s : State) (sequence : Byte) (v : Verdict) : State :=
  match s.steer.matching sequence with
  | none => s
  | some f =>
    match f.body with
    | .clearAll => s.clearAllOutcome
    | .station r => s.stationOutcome r v

/-- R208: the receiver has its footing: its line has been idle for 16 byte times. -/
def State.footed (s : State) : State := { s with steer := { s.steer with footing := true } }

/-- R208: after a run of bytes the sender holds its line idle, so the receiver has its footing again
(assumption log 18), and the part's own message has had the time to end (assumption log 19). -/
def State.afterRun (s : State) : State := s.footed.endMessage

/-- ACK (R145, R151, R208): the bytes are taken from byte 0 when the receiver has its footing and are
ignored when it has not; what they hold is taken when it is a valid ACK. -/
def execAck (run : List Byte) (s : State) : Host.Outcome State Fault Refusal :=
  match s.steer.footing, decodeAnswer run with
  | true, some (.ack sequence) => settle (s.takeAnswer sequence .ack).afterRun
  | _, _ => settle s.afterRun

/-- NAK (R145, R151, R208). -/
def execNak (run : List Byte) (s : State) : Host.Outcome State Fault Refusal :=
  match s.steer.footing, decodeAnswer run with
  | true, some (.nak sequence reason) => settle (s.takeAnswer sequence (.nak reason)).afterRun
  | _, _ => settle s.afterRun

/-- STEER_MESSAGE_DISCARDED (R145): no effect beyond the receiver's footing. -/
def execSteerMessageDiscarded (_run : List Byte) (s : State) : Host.Outcome State Fault Refusal :=
  settle s.afterRun

/-- LINE_IDLE (R208): the line has been idle for at least 16 byte times. -/
def execLineIdle (s : State) : Host.Outcome State Fault Refusal := settle s.footed

/-! ### Timeouts (9.4) -/

/-- R153, R196: `n` boundaries of the millisecond time base pass: the age of every notice is raised,
saturating at 255, and the ack timer is lowered, to 0 when it has run out (assumption logs 5, 6, 8). -/
def State.passMilliseconds (s : State) (n : Nat) : State :=
  { s with
    nq := { s.nq with queue := s.nq.queue.map fun x => { x with age := saturate8 x.age n } }
    steer := { s.steer with ackTimer := s.steer.ackTimer.map (· - n) } }

/-- R154: the retries of the in-flight request are exhausted. In STOPPING this ends the stop (R161), the
link going to IDLE, not DOWN. -/
def State.exhaustRetries (s : State) (f : InFlight) : State :=
  if s.steer.mode = .stopping then
    s.arriveStopped.post .steerLinkDown (.request f.body.kind f.sequence)
  else
    { s with steer := { s.steer with link := .down, ackTimer := none } }.post .steerLinkDown
      (.request f.body.kind f.sequence)

/-- R153: the ack timer has run out: the request is repeated, or its retries are exhausted. -/
def State.takeTimeout (s : State) (f : InFlight) : State :=
  if f.retries < s.mport.settings.steerRetryLimit.toNat then s.resend f (f.retries + 1)
  else s.exhaustRetries f

/-- ACK_TIMEOUT (R153): `elapsed` millisecond boundaries pass, and the timeout is taken if the timer has
run out by then. The timer runs while a request is in flight and the link is not DOWN. -/
def execAckTimeout (elapsed : Nat) (s : State) : Host.Outcome State Fault Refusal :=
  let t := s.passMilliseconds elapsed
  match t.steer.inFlight, t.steer.ackTimer with
  | some f, some 0 => settle (t.takeTimeout f)
  | _, _ => settle t

/-! ### STEER_RESTART (R156) -/

/-- R156, R185: STEER_RESTART at STEER. -/
def State.restartLink (s : State) : State × ResultCode :=
  if s.steer.link = .down then
    let t := { s with steer := { s.steer with link := .up } }
    match t.steer.inFlight with
    | some f => (t.resend f 0, .ok)
    | none => (t, .ok)
  else (s, .notDown)

end Sys2Proof.Machine
end

