-- ==== Sys2Proof/Machine/Commands.lean ====
section
/-! DEFINITION. CMDE (10): GO, the three steps of an execution, and the eighteen rows that execute the latched command. -/

namespace Sys2Proof.Machine

/-! ### GO -/

/-- R167: GO at CMDE. -/
def State.takeGo (s : State) : State :=
  match s.cmde.engine with
  | .idle => { s with cmde := { s.cmde with engine := .busy s.mport.commandArea .latched } }
  | .busy _ _ => { s with cmde := { s.cmde with overrun := true } }

/-! ### The execution of a latched command (R169) -/

/-- The checks at CMDE: the code of the first that fails (10.2, stages 1 to 3). -/
abbrev Checks := State → Memory → Option ResultCode

/-- The command's event at the owning block (10.2, stages 4 and 5, and the effect). -/
abbrev Event := State → Memory → State × Reply

/-- A reply with no data. -/
def reply (c : ResultCode) : Reply := { code := c, data := [] }

/-- Step 1 of R169: what the checks decide. -/
def afterChecks (failed : Option ResultCode) : Progress :=
  match failed with
  | some code => .decided (reply code)
  | none => .checked

/-- The progress of the execution replaced. -/
def State.setProgress (s : State) (c : Memory) (p : Progress) : State :=
  { s with cmde := { s.cmde with engine := .busy c p } }

/-- Step 3 of R169: the result record is written, every byte of the area, and the engine returns to
IDLE. -/
def State.complete (s : State) (c : Memory) (r : Reply) : State :=
  { s with cmde := { s.cmde with engine := .idle, resultArea := Memory.ofBytes (resultRecord c r) } }

/-- Step 1, if it is still to be made. -/
def runChecks (checks : Checks) (s : State) (c : Memory) : Progress → Progress
  | .latched => afterChecks (checks s c)
  | .checked => .checked
  | .decided r => .decided r

/-- Step 2, if it is to be made. -/
def runEvent (event : Event) (s : State) (c : Memory) : Progress → State × Progress
  | .latched => (s, .latched)
  | .checked => ((event s c).1, .decided (event s c).2)
  | .decided r => (s, .decided r)

/-- Step 3. -/
def runCompletion (s : State) (c : Memory) : Progress → State
  | .latched => s
  | .checked => s
  | .decided r => s.complete c r

/-- R169: the execution of a latched command carried on up to a step, from where it stands. -/
def State.execute (s : State) (c : Memory) (p : Progress) (checks : Checks) (event : Event)
    (upTo : CommandStage) : State :=
  let p1 := runChecks checks s c p
  match upTo with
  | .checks => s.setProgress c p1
  | .event => (runEvent event s c p1).1.setProgress c (runEvent event s c p1).2
  | .completion => runCompletion (runEvent event s c p1).1 c (runEvent event s c p1).2

/-- A row executes the latched command when its code is the row's; in IDLE, and for a command of another
row, nothing happens (assumption log 2). -/
def runRow (accepts : Byte → Bool) (checks : Checks) (event : Event) (upTo : CommandStage) (s : State) :
    Host.Outcome State Fault Refusal :=
  match s.cmde.engine with
  | .idle => settle s
  | .busy c p => if accepts (commandCode c) then settle (s.execute c p checks event upTo) else settle s

/-- Conditions in order, each with the code it gives: the code of the first that holds (10.2). -/
def firstFailed : List (Bool × ResultCode) → Option ResultCode
  | [] => none
  | (fails, code) :: rest => if fails then some code else firstFailed rest

/-- Stage 2 for a handle: a slot above 63 (R171). -/
def slotCheck (c : Memory) : Bool × ResultCode := (decide (63 < slotByte c), .badArgument)

/-- Stage 2 for a rule number above 95 (R60). -/
def ruleCheck (n : Nat) : Bool × ResultCode := (decide (95 < n), .badArgument)

/-- Stage 3: the mode, as STEER holds it, is not RUNNING (R171). -/
def runningCheck (s : State) : Bool × ResultCode := (decide (s.steer.mode ≠ .running), .notRunning)

/-- R12: handle resolution; the event goes on at the enrolled record. -/
def withHandle (f : State → Slot → Station → State × Reply) (s : State) (c : Memory) : State × Reply :=
  if h : slotByte c < 64 then
    let i : Slot := ⟨slotByte c, h⟩
    if s.generation i ≠ generationByte c then (s, reply .staleHandle)
    else match s.station i with
      | none => (s, reply .notFound)
      | some st => f s i st
  else (s, reply .badArgument)

/-- A refusal decided by ordered checks, or an effect. -/
def guarded (checks : List (Bool × ResultCode)) (s : State) (effect : State × Reply) : State × Reply :=
  match firstFailed checks with
  | some code => (s, reply code)
  | none => effect

/-! ### Enrolment (10.3) -/

/-- R174, checks 1 to 4. -/
def createChecks : Checks := fun _ c =>
  firstFailed [(isGroup (addressArgument c), .badArgument), (decide (addressArgument c = 0#48), .badArgument),
    (decide (31 < (Memory.read c 8).toNat), .badArgument), (decide (4095 < Memory.field c 9 2), .badArgument)]

/-- Table 1-1: the station a create enrols. -/
def newStation (c : Memory) : Station :=
  { address := addressArgument c, port := BitVec.ofNat 5 (Memory.read c 8).toNat,
    segment := BitVec.ofNat 12 (Memory.field c 9 2), defaultLease := BitVec.ofNat 16 (Memory.field c 11 2),
    identifiers := [], rules := [], template := none, state := .awake, lastSequence := none, lastAck := none,
    wakeAttempts := 0, answersSent := 0#16, wakesBegun := 0#16, framesShed := 0#16 }

/-- R174, checks 5 to 7, and R14. -/
def createEvent : Event := fun s c =>
  if addressArgument c = s.mport.settings.partAddress then (s, reply .badArgument)
  else if (s.findAddress (addressArgument c)).isSome then (s, reply .duplicateAddress)
  else match lowest (fun r => r.station.isNone) s.stab with
    | none => (s, reply .tableFull)
    | some i => (s.setStation i (newStation c), { code := .ok, data := handleData i (s.generation i) })

/-- STATION_CREATE (R14 to R16, R174). -/
def execStationCreate (upTo : CommandStage) (s : State) : Host.Outcome State Fault Refusal :=
  runRow (· = 0x01#8) createChecks createEvent upTo s

/-- R120, R175: the states in which a template may change. -/
def StationState.templateMayChange : StationState → Bool
  | .awake => true
  | .lapsed => true
  | .entering _ => false
  | .asleep _ => false
  | .waking _ _ => false
  | .leaving _ _ => false
  | .retiring => false

/-- R175, checks 1 and 2. -/
def setTemplateChecks : Checks := fun _ c =>
  firstFailed [slotCheck c,
    (decide ((Memory.read c 4).toNat < Config.templateMin ∨ Config.templateMax < (Memory.read c 4).toNat), .badArgument)]

/-- R175, checks 3 and 4, and R120: exactly length bytes from byte 5. -/
def setTemplateEvent : Event := fun s c =>
  withHandle (fun s i st =>
    guarded [(!st.state.templateMayChange, .stateConflict)] s
      (s.setStation i { st with template := some (Memory.bytes c 5 (Memory.read c 4).toNat) }, reply .ok)) s c

/-- STATION_SET_TEMPLATE (R120, R175). -/
def execStationSetTemplate (upTo : CommandStage) (s : State) : Host.Outcome State Fault Refusal :=
  runRow (· = 0x02#8) setTemplateChecks setTemplateEvent upTo s

/-- The checks of a command whose one argument is a handle. -/
def handleChecks : Checks := fun _ c => firstFailed [slotCheck c]

/-- R121. -/
def clearTemplateEvent : Event := withHandle fun s i st =>
  guarded [(!st.state.templateMayChange, .stateConflict)] s
    (s.setStation i { st with template := none }, reply .ok)

/-- STATION_CLEAR_TEMPLATE (R121, R175). -/
def execStationClearTemplate (upTo : CommandStage) (s : State) : Host.Outcome State Fault Refusal :=
  runRow (· = 0x03#8) handleChecks clearTemplateEvent upTo s

/-- R49: the illegal identifiers. -/
def illegalIdentifier (id : Identifier) : Bool := decide (id = 0#32) || decide (id = 0xFFFFFFFF#32)

/-- R176, checks 1 to 3. -/
def addIdentifierChecks : Checks := fun _ c =>
  firstFailed [slotCheck c, (illegalIdentifier (identifierArgument c), .badArgument),
    (decide (1 < (Memory.read c 8).toNat), .badArgument)]

/-- Whether a key is in the map (R47). -/
def mapHolds (idmap : List MapEntry) (id : Identifier) (segment : Segment) : Bool :=
  idmap.any fun e => decide (e.identifier = id) && decide (e.segment = segment)

/-- R51: the list entry and the map entry inserted together. -/
def State.addIdentifier (s : State) (i : Slot) (st : Station) (id : Identifier) (flag : Bool) : State :=
  { s.setStation i { st with identifiers := st.identifiers ++ [{ identifier := id, wakeOnQuery := flag }] } with
    idmap := s.idmap ++ [{ identifier := id, segment := st.segment, slot := i, wakeOnQuery := flag }] }

/-- R176, checks 4 to 8, and R51. -/
def addIdentifierEvent : Event := fun s c =>
  withHandle (fun s i st =>
    guarded [(decide (st.state = .retiring), .stateConflict),
        (mapHolds s.idmap (identifierArgument c) st.segment, .duplicateIdentifier),
        (decide (Config.listCapacity ≤ st.identifiers.length), .listFull),
        (decide (Config.mapCapacity ≤ s.idmap.length), .mapFull)] s
      (s.addIdentifier i st (identifierArgument c) (decide (Memory.read c 8 = 1#8)), reply .ok)) s c

/-- STATION_ADD_IDENTIFIER (R51, R52, R176). -/
def execStationAddIdentifier (upTo : CommandStage) (s : State) : Host.Outcome State Fault Refusal :=
  runRow (· = 0x04#8) addIdentifierChecks addIdentifierEvent upTo s

/-- R53, R176: the checks of a removal. -/
def removeIdentifierChecks : Checks := fun _ c =>
  firstFailed [slotCheck c, (illegalIdentifier (identifierArgument c), .badArgument)]

/-- R53: the list entry and the map entry removed together. -/
def State.removeIdentifier (s : State) (i : Slot) (st : Station) (id : Identifier) : State :=
  { s.setStation i { st with identifiers := st.identifiers.filter fun l => decide (l.identifier ≠ id) } with
    idmap := s.idmap.filter fun e => !(decide (e.identifier = id) && decide (e.segment = st.segment)) }

/-- R53. -/
def removeIdentifierEvent : Event := fun s c =>
  withHandle (fun s i st =>
    guarded [(decide (st.state = .retiring), .stateConflict),
        (!st.identifiers.any (fun l => decide (l.identifier = identifierArgument c)), .notFound)] s
      (s.removeIdentifier i st (identifierArgument c), reply .ok)) s c

/-- STATION_REMOVE_IDENTIFIER (R53, R176). -/
def execStationRemoveIdentifier (upTo : CommandStage) (s : State) : Host.Outcome State Fault Refusal :=
  runRow (· = 0x05#8) removeIdentifierChecks removeIdentifierEvent upTo s

/-- R177, check 1. -/
def listedRuleChecks : Checks := fun _ c => firstFailed [slotCheck c, ruleCheck (listedRuleByte c)]

/-- A rule number from a byte that R60 admits; any other is refused. -/
def withRule (n : Nat) (s : State) (f : RuleNumber → State × Reply) : State × Reply :=
  if h : n < 96 then f ⟨n, h⟩ else (s, reply .badArgument)

/-- R72: the rule appended to the list and its count raised together. -/
def State.attachRule (s : State) (i : Slot) (st : Station) (n : RuleNumber) : State :=
  { s.setStation i { st with rules := st.rules ++ [n] } with rstore := updateCount s.rstore n (· + 1) }

/-- R177, checks 2 to 6, and R72. -/
def attachRuleEvent : Event := fun s c =>
  withHandle (fun s i st => withRule (listedRuleByte c) s fun n =>
    guarded [(decide (st.state = .retiring), .stateConflict), (s.rstore[n.val].body.isNone, .ruleUndefined),
        (decide (n ∈ st.rules), .duplicateRule), (decide (Config.listCapacity ≤ st.rules.length), .listFull)] s
      (s.attachRule i st n, reply .ok)) s c

/-- STATION_ATTACH_RULE (R72, R177). -/
def execStationAttachRule (upTo : CommandStage) (s : State) : Host.Outcome State Fault Refusal :=
  runRow (· = 0x06#8) listedRuleChecks attachRuleEvent upTo s

/-- R73: the rule removed from the list and its count lowered together. -/
def State.detachRule (s : State) (i : Slot) (st : Station) (n : RuleNumber) : State :=
  { s.setStation i { st with rules := st.rules.erase n } with rstore := updateCount s.rstore n (· - 1) }

/-- R73, R177. -/
def detachRuleEvent : Event := fun s c =>
  withHandle (fun s i st => withRule (listedRuleByte c) s fun n =>
    guarded [(decide (st.state = .retiring), .stateConflict), (decide (n ∉ st.rules), .notFound)] s
      (s.detachRule i st n, reply .ok)) s c

/-- STATION_DETACH_RULE (R73, R177). -/
def execStationDetachRule (upTo : CommandStage) (s : State) : Host.Outcome State Fault Refusal :=
  runRow (· = 0x07#8) listedRuleChecks detachRuleEvent upTo s

/-! ### Reading, operation, finding (10.4, 10.5) -/

/-- R19. -/
def readEvent : Event := withHandle fun s i st =>
  (s, { code := .ok, data := stationData i (s.generation i) st })

/-- STATION_READ (R19, R181). -/
def execStationRead (upTo : CommandStage) (s : State) : Host.Outcome State Fault Refusal :=
  runRow (· = 0x08#8) handleChecks readEvent upTo s

/-- The checks of a command that needs RUNNING (R171). -/
def runningHandleChecks : Checks := fun s c => firstFailed [slotCheck c, runningCheck s]

/-- R178. -/
def sleepEvent : Event := fun s c =>
  withHandle (fun s i st =>
    let r := s.sleepCommanded i st (BitVec.ofNat 16 (Memory.field c 4 2))
    (r.1, reply r.2)) s c

/-- STATION_SLEEP (R29 to R33, R178). -/
def execStationSleep (upTo : CommandStage) (s : State) : Host.Outcome State Fault Refusal :=
  runRow (· = 0x09#8) runningHandleChecks sleepEvent upTo s

/-- R179. -/
def wakeEvent : Event := withHandle fun s i st =>
  let r := s.wakeCommanded i st
  (r.1, reply r.2)

/-- STATION_WAKE (R37, R38, R179). -/
def execStationWake (upTo : CommandStage) (s : State) : Host.Outcome State Fault Refusal :=
  runRow (· = 0x0A#8) runningHandleChecks wakeEvent upTo s

/-- R180. -/
def retireEvent : Event := withHandle fun s i st =>
  let r := s.retire i st
  (r.1, reply r.2)

/-- STATION_RETIRE (R41 to R43, R180). -/
def execStationRetire (upTo : CommandStage) (s : State) : Host.Outcome State Fault Refusal :=
  runRow (· = 0x0B#8) handleChecks retireEvent upTo s

/-- R18. -/
def clearCountersEvent : Event := withHandle fun s i st =>
  (s.setStation i { st with answersSent := 0#16, wakesBegun := 0#16, framesShed := 0#16 }, reply .ok)

/-- STATION_CLEAR_COUNTERS (R18, R181). -/
def execStationClearCounters (upTo : CommandStage) (s : State) : Host.Outcome State Fault Refusal :=
  runRow (· = 0x0C#8) handleChecks clearCountersEvent upTo s

/-- Commands with no check at CMDE. -/
def noChecks : Checks := fun _ _ => none

/-- R20, R182. -/
def findEvent : Event := fun s c =>
  match s.findAddress (addressArgument c) with
  | some (i, _) => (s, { code := .ok, data := handleData i (s.generation i) })
  | none => (s, reply .notFound)

/-- STATION_FIND (R20, R182). -/
def execStationFind (upTo : CommandStage) (s : State) : Host.Outcome State Fault Refusal :=
  runRow (· = 0x0D#8) noChecks findEvent upTo s

/-! ### Rules (10.6) -/

/-- The scope a scope byte names (R206). -/
def scopeOfByte (b : Byte) : Option Scope :=
  match b.toNat with
  | 1 => some .directed
  | 2 => some .any
  | _ => none

/-- R183, checks 1 to 4. -/
def defineChecks : Checks := fun _ c =>
  firstFailed [ruleCheck (ruleByte c), ((scopeOfByte (Memory.read c 3)).isNone, .badArgument),
    (decide (Memory.read c 4 = 0#8 ∨ 8 < (Memory.read c 4).toNat), .badArgument),
    (!spansValid (spanArguments c (Memory.read c 4).toNat), .badArgument)]

/-- R69: what RULE_DEFINE stores. -/
def newRule (c : Memory) : Rule :=
  { refCount := 0
    body := some { scope := (scopeOfByte (Memory.read c 3)).getD .directed
                   spans := spanArguments c (Memory.read c 4).toNat
                   digest := BitVec.ofNat 32 (Memory.field c 5 4) } }

/-- R183, check 5, and R69. -/
def defineEvent : Event := fun s c =>
  withRule (ruleByte c) s fun n =>
    guarded [(s.rstore[n.val].body.isSome, .ruleDefined)] s
      ({ s with rstore := tset s.rstore n (newRule c) }, reply .ok)

/-- RULE_DEFINE (R60, R69, R183). -/
def execRuleDefine (upTo : CommandStage) (s : State) : Host.Outcome State Fault Refusal :=
  runRow (· = 0x20#8) defineChecks defineEvent upTo s

/-- The checks of a command whose one argument is a rule number. -/
def ruleNumberChecks : Checks := fun _ c => firstFailed [ruleCheck (ruleByte c)]

/-- R70, R184. -/
def deleteEvent : Event := fun s c =>
  withRule (ruleByte c) s fun n =>
    guarded [(s.rstore[n.val].body.isNone, .ruleUndefined), (decide (0 < s.rstore[n.val].refCount), .ruleInUse)] s
      ({ s with rstore := tset s.rstore n { refCount := 0, body := none } }, reply .ok)

/-- RULE_DELETE (R70, R184). -/
def execRuleDelete (upTo : CommandStage) (s : State) : Host.Outcome State Fault Refusal :=
  runRow (· = 0x21#8) ruleNumberChecks deleteEvent upTo s

/-- R71. -/
def ruleReadEvent : Event := fun s c =>
  withRule (ruleByte c) s fun n => (s, { code := .ok, data := ruleData n s.rstore[n.val] })

/-- RULE_READ (R71, R184). -/
def execRuleRead (upTo : CommandStage) (s : State) : Host.Outcome State Fault Refusal :=
  runRow (· = 0x22#8) ruleNumberChecks ruleReadEvent upTo s

/-! ### STEER_RESTART and unknown codes -/

/-- R185. -/
def restartEvent : Event := fun s _ =>
  let r := s.restartLink
  (r.1, reply r.2)

/-- STEER_RESTART (R156, R185). -/
def execSteerRestart (upTo : CommandStage) (s : State) : Host.Outcome State Fault Refusal :=
  runRow (· = 0x30#8) noChecks restartEvent upTo s

/-- R171, stage 1: the code names no command. -/
def unknownChecks : Checks := fun _ _ => some .badCommand

/-- No block takes an unknown command: its checks never pass. -/
def unknownEvent : Event := fun s _ => (s, reply .badCommand)

/-- UNKNOWN_COMMAND_CODE (R171). -/
def execUnknownCommandCode (upTo : CommandStage) (s : State) : Host.Outcome State Fault Refusal :=
  runRow (fun b => !Config.commandCodes.contains b) unknownChecks unknownEvent upTo s

end Sys2Proof.Machine
end

