-- ==== Sys2Proof/Machine/Emission.lean ====
section
/-! DEFINITION. EMIT (08): beginning and completing transmissions. -/

namespace Sys2Proof.Machine

/-- R132, R134: the bytes an entry sends, as they stand when its transmission begins. For a WAKE entry,
none when the record does not hold the entry's address or holds no template. A resource that holds no
frame gives none (no run reaches it, assumption log 14). -/
def State.entryBytes (s : State) (k : EntryKind) : Option (List Byte) :=
  match k with
  | .answer b => s.resp.buffers[b.val]
  | .wake i a => (s.matched i a).bind (·.template)
  | .held b => match s.hold[b.val] with
    | .queued bytes => some bytes
    | .reserved _ => none
    | .free => none
  | .pass j => s.icls.slots[j.val].frame.map (·.bytes)

/-- R207: the bytes a transfer puts on the fabric emission port: the emission tag (the egress port, and the
segment in two bytes) and then the frame bytes. -/
def Transfer.wire (t : Transfer) : List Byte :=
  [BitVec.ofNat 8 t.port.toNat] ++ beBytes 2 t.segment.toNat ++ t.bytes

/-- TRANSMISSION_BEGIN (R134): with nothing SENDING, the head entry is begun, or a WAKE entry whose
record no longer matches is discarded unsent. -/
def execTransmissionBegin (s : State) : Host.Outcome State Fault Refusal :=
  match s.emit.sending, s.emit.waiting with
  | none, x :: rest =>
    match s.entryBytes x.kind with
    | some bytes =>
      settle { s with emit := { sending := some (x, { port := x.port, segment := x.segment, bytes := bytes }),
                                waiting := rest } }
    | none => settle { s with emit := { sending := none, waiting := rest } }
  | _, _ => settle s

/-- A transfer ends on the emission port. -/
def State.endTransfer (s : State) (t : Transfer) (e : TransferEnd) : State :=
  { s with out := { s.out with emitted := s.out.emitted ++ [(t, e)] } }

/-- TRANSMISSION_COMPLETION (R135, R136): the SENDING entry leaves the queue and its resource is
freed. -/
def execTransmissionCompletion (s : State) : Host.Outcome State Fault Refusal :=
  match s.emit.sending with
  | some (x, t) =>
    settle (({ s with emit := { s.emit with sending := none } }.endTransfer t .complete).freeResource x.kind)
  | none => settle s

end Sys2Proof.Machine
end

