-- ==== Sys2Proof/Machine/Responder.lean ====
section
/-! DEFINITION. RESP (06): settling the jobs of ICLS and of STAB. -/

namespace Sys2Proof.Machine

/-- R99: the claim of an answer buffer and an emission place, in that order; the cause of the drop when
one is lacking. -/
def State.claimAnswer (s : State) (frame : List Byte) (port : Port) (segment : Segment) : Except DropCause State :=
  match lowest (fun b => b.isNone) s.resp.buffers with
  | none => .error .noBuffer
  | some b =>
    match s.emit.append { kind := .answer b, port := port, segment := segment } with
    | none => .error .noPlace
    | some e => .ok { s with emit := e, resp := { s.resp with buffers := tset s.resp.buffers b (some frame) } }

/-- R100: a dropped answer posts ANSWER_DROPPED. -/
def State.dropAnswer (s : State) (answer : DroppedAnswer) (why : DropCause) : State :=
  s.post .answerDropped (.drop answer why)

/-- R98: the state code of an answer, for the states in which the part answers. -/
def StationState.answerCode : StationState → Option Byte
  | .asleep _ => some 1#8
  | .waking _ _ => some 2#8
  | .awake => none
  | .entering _ => none
  | .leaving _ _ => none
  | .lapsed => none
  | .retiring => none

/-- R102, R103: the frame of an answer job at a record, read at the answer event. -/
def answerBytes (job : AnswerJob) (st : Station) (type : Half) (stateCode : Byte) : List Byte :=
  match job.kind with
  | .reply target => answerFrame job type 2#8 stateCode target job.senderIdentifier
  | .probeReply =>
    answerFrame job type 4#8 stateCode ((st.identifiers.head?.map (·.identifier)).getD 0#32) job.senderIdentifier

/-- The kind a dropped answer job is reported as. -/
def AnswerKind.dropped : AnswerKind → DroppedAnswer
  | .reply _ => .reply
  | .probeReply => .probeReply

/-- R98 to R101: the answer event of a REPLY or PROBE_REPLY job. A void or lapsed job does nothing. -/
def State.answer (s : State) (job : AnswerJob) : State :=
  match s.matched job.slot job.address with
  | none => s
  | some st =>
    match st.state.answerCode with
    | none => s
    | some code =>
      match s.claimAnswer (answerBytes job st s.mport.settings.queryType code) job.port job.segment with
      | .error why => s.dropAnswer job.kind.dropped why
      | .ok t => t.updateStation job.slot fun u => { u with answersSent := saturate16 u.answersSent }

/-- The first job of ICLS is taken from its list. -/
def State.popAnswerJob (s : State) : State :=
  { s with resp := { s.resp with answerJobs := s.resp.answerJobs.tail } }

/-- REPLY_JOB (R97 to R102): RESP takes ICLS's next job when it is a REPLY job. -/
def execReplyJob (s : State) : Host.Outcome State Fault Refusal :=
  match s.resp.answerJobs with
  | [] => settle s
  | job :: _ =>
    match job.kind with
    | .reply _ => settle (s.popAnswerJob.answer job)
    | .probeReply => settle s

/-- PROBE_REPLY_JOB (R97 to R101, R103): RESP takes ICLS's next job when it is a PROBE_REPLY job. -/
def execProbeReplyJob (s : State) : Host.Outcome State Fault Refusal :=
  match s.resp.answerJobs with
  | [] => settle s
  | job :: _ =>
    match job.kind with
    | .probeReply => settle (s.popAnswerJob.answer job)
    | .reply _ => settle s

/-- R104, R106: a SLEEP_ACK is built with the values in force, or dropped. -/
def State.acknowledge (s : State) (job : AckJob) : State :=
  let c := s.mport.settings
  if c.announceType = 0#16 ∨ c.partAddress = 0#48 then s.dropAnswer .sleepAck .unconfigured
  else
    match s.claimAnswer (sleepAckFrame job c.partAddress c.announceType) job.port job.segment with
    | .error why => s.dropAnswer .sleepAck why
    | .ok t => t

/-- SLEEP_ACK_JOB (R97, R104): RESP takes STAB's next job. -/
def execSleepAckJob (s : State) : Host.Outcome State Fault Refusal :=
  match s.resp.ackJobs with
  | [] => settle s
  | job :: rest => settle ({ s with resp := { s.resp with ackJobs := rest } }.acknowledge job)

end Sys2Proof.Machine
end

