-- ==== Sys2Proof/Machine/Intake.lean ====
section
/-! DEFINITION. ICLS (05) with the lookups of IDMAP (03) and the evaluations of RSTORE (04); the events ICLS presents, as STAB takes them. -/

namespace Sys2Proof.Machine

/-! ### Arrival (5.1) -/

/-- The delivery reason a tag byte names (R207). -/
def deliveryReason (b : Byte) : Option DeliveryReason :=
  match b.toNat with
  | 1 => some .steered
  | 2 => some .flood
  | 3 => some .direct
  | _ => none

/-- R75, R207: test 1: the frame a transfer delivered, or none when its tag is out of range, its length is
below 14 or above 1536, or the number of its frame bytes differs from the tag's length. -/
def Arrived.frame (a : Arrived) : Option Frame :=
  match deliveryReason a.tag.reason with
  | none => none
  | some reason =>
    if a.tag.ingress.toNat ≤ 31 ∧ a.tag.segment.toNat ≤ 4095 ∧ Config.frameMin ≤ a.tag.length.toNat ∧
        a.tag.length.toNat ≤ Config.frameMax ∧ a.count = a.tag.length.toNat then
      some { ingress := BitVec.ofNat 5 a.tag.ingress.toNat, segment := BitVec.ofNat 12 a.tag.segment.toNat,
             reason := reason, bytes := a.bytes }
    else none

/-- The intake slot a transfer in progress is filling. -/
def Icls.arriving (c : Icls) : Option (Fin 4) := lowest (fun x => decide (x = IntakeSlot.arriving)) c.slots

/-- An intake slot replaced. -/
def Icls.setSlot (c : Icls) (j : Fin 4) (x : IntakeSlot) : Icls := { c with slots := tset c.slots j x }

/-- R76: a transfer starts into the lowest free slot, if the port is ready and no transfer is in
progress (assumption log 12). -/
def State.startArrival (s : State) : State :=
  if s.readyForFrames && s.icls.arriving.isNone then
    match lowest IntakeSlot.isFree s.icls.slots with
    | some j => { s with icls := s.icls.setSlot j .arriving }
    | none => s
  else s

/-- R76, R77, R207: the transfer in progress ends: what it carried stays in its slot, last in arrival order;
bytes beyond the 1536th are not stored. -/
def State.finishArrival (s : State) (tag : IntakeTag) (bytes : List Byte) : State :=
  match s.icls.arriving with
  | none => s
  | some j =>
    { s with icls := { s.icls.setSlot j (.received
        { tag := tag, bytes := bytes.take Config.frameMax, count := bytes.length }) with
      arrivals := s.icls.arrivals ++ [j] } }

/-- FRAME_ARRIVAL (R75, R76, R207). A whole transfer is its start and its end; with the port not ready
it does not reach the part. -/
def execFrameArrival (part : ArrivalPart) (s : State) : Host.Outcome State Fault Refusal :=
  match part with
  | .start => settle s.startArrival
  | .finish tag bytes => settle (s.finishArrival tag bytes)
  | .whole tag bytes =>
    if s.readyForFrames && s.icls.arriving.isNone then settle (s.startArrival.finishArrival tag bytes)
    else settle s

/-! ### The digest and the evaluation of rules (4.3, 4.4) -/

/-- R62, step 3: one bit taken into the register. -/
def checkBit (register : BitVec 32) (bit : Bool) : BitVec 32 :=
  let shifted := register >>> 1
  if register.getLsbD 0 != bit then shifted ^^^ Config.checkConstant else shifted

/-- R62, step 2: one byte, from bit 0 to bit 7. -/
def checkByteInto (register : BitVec 32) (b : Byte) : BitVec 32 :=
  (List.range 8).foldl (fun r k => checkBit r (b.getLsbD k)) register

/-- R62: the 32-bit cyclic check of a string of bytes. -/
def cyclicCheck (bytes : List Byte) : BitVec 32 := ~~~(bytes.foldl checkByteInto 0xFFFFFFFF#32)

/-- R63: the bytes of a rule's spans, in span order. -/
def spanBytes (frame : List Byte) (spans : List Span) : List Byte :=
  spans.flatMap fun x => (frame.drop x.offset).take x.length

/-- R63: one rule against one frame. -/
def RuleBody.matchesFrame (b : RuleBody) (frame : List Byte) : Bool :=
  b.spans.all (fun x => decide (x.offset + x.length ≤ frame.length)) &&
    decide (cyclicCheck (spanBytes frame b.spans) = b.digest)

/-- R61: whether a rule's scope admits it on a frame delivered for this reason. -/
def Scope.admits (scope : Scope) (reason : DeliveryReason) : Bool :=
  match reason with
  | .steered => true
  | .flood => decide (scope = .any)
  | .direct => false

/-- R64: whether an admitted rule of a list matches. A listed rule is DEFINED (R66); a FREE one matches
nothing. -/
def ruleMatches (rules : Vector Rule 96) (f : Frame) (n : RuleNumber) : Bool :=
  match rules[n.val].body with
  | some b => b.scope.admits f.reason && b.matchesFrame f.bytes
  | none => false

/-- R64: a station evaluation: the first rule of the list that the scope admits and that matches. -/
def evaluate (rules : Vector Rule 96) (list : List RuleNumber) (f : Frame) : Option RuleNumber :=
  list.find? (ruleMatches rules f)

/-- R67: whether a rule list holds a rule of scope ANY. -/
def listsAny (rules : Vector Rule 96) (list : List RuleNumber) : Bool :=
  list.any fun n => match rules[n.val].body with
    | some b => decide (b.scope = .any)
    | none => false

/-- R54: a lookup of IDMAP. -/
def lookup (idmap : List MapEntry) (id : Identifier) (segment : Segment) : Option MapEntry :=
  idmap.find? fun e => decide (e.identifier = id) && decide (e.segment = segment)

/-! ### Presenting, and ending a frame's classification -/

/-- ICLS presents an event to STAB (R77, R80). -/
def State.present (s : State) (i : Slot) (a : Address) (k : PresentedKind) : State :=
  { s with presented := s.presented ++ [{ slot := i, address := a, kind := k }] }

/-- ICLS hands RESP an answer job (R97). -/
def State.handAnswer (s : State) (job : AnswerJob) : State :=
  { s with resp := { s.resp with answerJobs := s.resp.answerJobs ++ [job] } }

/-- R77: the classification of the oldest frame ends, leaving its slot as given. -/
def State.endFrame (s : State) (j : Fin 4) (x : IntakeSlot) : State :=
  { s with icls := { slots := tset s.icls.slots j x, arrivals := s.icls.arrivals.tail, current := none } }

/-- The classification of the oldest frame goes on to a next test. -/
def State.nextTest (s : State) (sighted : Option Slot) (n : NextTest) : State :=
  { s with icls := { s.icls with current := some { next := n, sighted := sighted } } }

/-! ### The tests (5.2 to 5.7) -/

/-- R81: announcement form. -/
def isAnnouncementForm (c : Settings) (f : Frame) : Bool :=
  decide (f.reason = .direct) && decide (frameDestination f.bytes = c.partAddress) &&
    decide (c.announceType ≠ 0#16) && decide (frameType f.bytes = c.announceType)

/-- R81: the states in which a record is sighted. -/
def StationState.sightable : StationState → Bool
  | .asleep _ => true
  | .waking _ _ => true
  | .leaving .exhausted _ => true
  | .leaving .confirmed _ => false
  | .lapsed => true
  | .awake => false
  | .entering _ => false
  | .retiring => false

/-- Whether a frame came in by a station's own port and segment. -/
def Station.isAt (st : Station) (f : Frame) : Bool :=
  decide (f.ingress = st.port) && decide (f.segment = st.segment)

/-- R81: the record a frame is a sighting of. -/
def State.sightedBy (s : State) (f : Frame) : Option (Slot × Station) :=
  if isAnnouncementForm s.mport.settings f then none
  else match s.findAddress (frameSource f.bytes) with
    | some (i, st) => if st.isAt f && st.state.sightable then some (i, st) else none
    | none => none

/-- The test that follows test 2 (Table 5-2). -/
def DeliveryReason.afterSighting : DeliveryReason → NextTest
  | .steered => .probe
  | .flood => .query
  | .direct => .announcement

/-- Test 2 (R81). -/
def State.testSighting (s : State) (f : Frame) : State :=
  match s.sightedBy f with
  | some (i, st) => (s.present i st.address .sighting).nextTest (some i) f.reason.afterSighting
  | none => s.nextTest none f.reason.afterSighting

/-- The op of an announcement payload (R83). -/
def announceOp (bytes : List Byte) : Option AnnounceOp :=
  match payloadOp bytes with
  | 1 => some .sleep
  | 2 => some .awake
  | _ => none

/-- R83: the announcement a DIRECT frame is, if it is one. -/
def recognised (c : Settings) (f : Frame) : Option AnnounceOp :=
  if isAnnouncementForm c f && decide (c.partAddress ≠ 0#48) && decide (20 ≤ f.bytes.length) &&
      !isGroup (frameSource f.bytes) then announceOp f.bytes
  else none

/-- R85: the known announcer of a frame. -/
def State.announcer (s : State) (f : Frame) : Option (Slot × Station) :=
  match s.findAddress (frameSource f.bytes) with
  | some (i, st) => if st.isAt f then some (i, st) else none
  | none => none

/-- Test 3 (R84, R85). -/
def State.testAnnouncement (s : State) (j : Fin 4) (f : Frame) : State :=
  match recognised s.mport.settings f with
  | none => s.endFrame j .free
  | some op =>
    match s.announcer f with
    | some (i, st) =>
      (s.present i st.address (.announcement op (announcedSequence f.bytes) (announcedLease f.bytes))).endFrame j .free
    | none => (s.post .unknownAnnouncer (.address (frameSource f.bytes))).endFrame j .free

/-- R89: query form. -/
def isQueryForm (c : Settings) (bytes : List Byte) : Bool :=
  decide (c.queryType ≠ 0#16) && decide (frameType bytes = c.queryType) && decide (30 ≤ bytes.length)

/-- Test 4 of a FLOOD frame, the lookup (R89, R90). -/
def State.testQuery (s : State) (sighted : Option Slot) (f : Frame) : State :=
  if isQueryForm s.mport.settings f.bytes && decide (payloadOp f.bytes = 1) && !isGroup (querySender f.bytes) then
    match lookup s.idmap (queryTarget f.bytes) f.segment with
    | some e => s.nextTest sighted (.answer e.slot e.wakeOnQuery)
    | none => s.nextTest sighted (.flood 0)
  else s.nextTest sighted (.flood 0)

/-- R90: the job a query's frame gives for the record found. -/
def replyJob (f : Frame) (i : Slot) (st : Station) : AnswerJob :=
  { kind := .reply (queryTarget f.bytes), slot := i, address := st.address, sender := querySender f.bytes,
    senderIdentifier := querySenderIdentifier f.bytes, port := f.ingress, segment := f.segment }

/-- R90: the use of a lookup's result: the record in the slot is read now (R55). -/
def State.useLookup (s : State) (f : Frame) (i : Slot) (flag : Bool) : State :=
  match s.station i with
  | none => s
  | some st =>
    if querySender f.bytes = st.address then s
    else
      match st.state with
      | .asleep _ =>
        let t := s.handAnswer (replyJob f i st)
        if flag then t.present i st.address (.trigger (.query (queryTarget f.bytes)) none) else t
      | .waking _ _ => s.handAnswer (replyJob f i st)
      | .awake => s
      | .entering _ => s
      | .leaving _ _ => s
      | .lapsed => s
      | .retiring => s

/-- R91: the record a STEERED frame is an answerable probe of. -/
def State.probed (s : State) (f : Frame) : Option (Slot × Station) :=
  if isQueryForm s.mport.settings f.bytes && decide (payloadOp f.bytes = 3) && !isGroup (querySender f.bytes) then
    match s.findAddress (frameDestination f.bytes) with
    | some (i, st) =>
      if st.state.answerCode.isSome && decide (querySender f.bytes ≠ st.address) then some (i, st) else none
    | none => none
  else none

/-- R91: the job a probe's frame gives for the record found. -/
def probeJob (f : Frame) (i : Slot) (st : Station) : AnswerJob :=
  { kind := .probeReply, slot := i, address := st.address, sender := querySender f.bytes,
    senderIdentifier := querySenderIdentifier f.bytes, port := f.ingress, segment := f.segment }

/-- Test 4 of a STEERED frame (R91). -/
def State.testProbe (s : State) (j : Fin 4) (sighted : Option Slot) (f : Frame) : State :=
  match s.probed f with
  | some (i, st) => (s.handAnswer (probeJob f i st)).endFrame j .free
  | none => s.nextTest sighted .steered

/-- R93: the frame is shed: the raise of the counter is presented and the slot is freed. -/
def State.shedFrame (s : State) (j : Fin 4) (i : Slot) (st : Station) : State :=
  (s.present i st.address .shed).endFrame j .free

/-- R94: pass-through by ICLS, or the frame is shed when the emission queue is full. -/
def State.passFrame (s : State) (j : Fin 4) (f : Frame) (i : Slot) (st : Station) : State :=
  match s.passThrough j f st.port st.segment with
  | some t => t.endFrame j (.passing f)
  | none => s.shedFrame j i st

/-- Test 5 (R92, R93). -/
def State.testSteered (s : State) (j : Fin 4) (f : Frame) : State :=
  match s.findAddress (frameDestination f.bytes) with
  | none => s.endFrame j .free
  | some (i, st) =>
    match st.state with
    | .asleep _ =>
      match evaluate s.rstore st.rules f with
      | some n => (s.present i st.address (.trigger (.rule n) (some j))).endFrame j (.triggered f)
      | none => s.shedFrame j i st
    | .waking _ _ => s.shedFrame j i st
    | .awake => s.passFrame j f i st
    | .entering _ => s.passFrame j f i st
    | .leaving _ _ => s.passFrame j f i st
    | .lapsed => s.passFrame j f i st
    | .retiring => s.passFrame j f i st

/-- R95: whether a record is asleep. -/
def StationState.isAsleep : StationState → Bool
  | .asleep _ => true
  | .awake => false
  | .entering _ => false
  | .waking _ _ => false
  | .leaving _ _ => false
  | .lapsed => false
  | .retiring => false

/-- Test 6 at one record (R67, R95): an ASLEEP record of the tag's segment that lists an ANY rule is
evaluated, but for the record the frame was a sighting of. -/
def State.floodAt (s : State) (sighted : Option Slot) (f : Frame) (i : Slot) : State :=
  match s.station i with
  | none => s
  | some st =>
    if st.state.isAsleep && decide (st.segment = f.segment) && listsAny s.rstore st.rules &&
        !(decide (sighted = some i) && decide (st.address = frameSource f.bytes)) then
      match evaluate s.rstore st.rules f with
      | some n => s.present i st.address (.trigger (.rule n) none)
      | none => s
    else s

/-- Test 6 (R95): record `k`, then the next; after the last the frame's handling ends. The rules give the
records no order (R67); that they are read from slot 0 up, each as a step of its own, is the model's choice
(DESIGN CHOICE, assumption log 27). -/
def State.testFlood (s : State) (j : Fin 4) (sighted : Option Slot) (f : Frame) (k : Nat) : State :=
  if h : k < 64 then
    let t := s.floodAt sighted f ⟨k, h⟩
    if k + 1 < 64 then t.nextTest sighted (.flood (k + 1)) else t.endFrame j .free
  else s.endFrame j .free

/-- R79: the next test of the oldest unclassified frame. -/
def State.makeTest (s : State) (j : Fin 4) (f : Frame) (c : Classification) : State :=
  match c.next with
  | .sighting => s.testSighting f
  | .announcement => s.testAnnouncement j f
  | .query => s.testQuery c.sighted f
  | .answer i flag => (s.useLookup f i flag).nextTest c.sighted (.flood 0)
  | .probe => s.testProbe j c.sighted f
  | .steered => s.testSteered j f
  | .flood k => s.testFlood j c.sighted f k

/-- Test 1 (R75, R79): the frame goes on to test 2, or it is discarded and its slot is free again. -/
def State.testTag (s : State) (j : Fin 4) (a : Arrived) : State :=
  match a.frame with
  | some f => { s with icls := s.icls.setSlot j (.unclassified f) }.nextTest none .sighting
  | none => s.endFrame j .free

/-- One test of the oldest frame not yet classified: its first, or the next (R77). -/
def State.classifyOnce (s : State) : State :=
  match s.icls.arrivals with
  | [] => s
  | j :: _ =>
    match s.icls.slots[j.val] with
    | .received a => s.testTag j a
    | .unclassified f => s.makeTest j f (s.icls.current.getD { next := .sighting, sighted := none })
    | .free => s
    | .arriving => s
    | .triggered _ => s
    | .passing _ => s

/-- Up to `n` tests of one frame: those of the next frame do not begin before its own have ended
(R77). -/
def State.classify : Nat → State → State
  | 0, s => s
  | n + 1, s =>
    let t := s.classifyOnce
    if t.icls.current.isNone then t else State.classify n t

/-- More tests than any frame meets: at most six before test 6, and one at each of the 64 records. -/
def allTests : Nat := 70

/-- FRAME_CLASSIFICATION (R77, R79): all tests left of the oldest frame, or the next `n`. -/
def execFrameClassification (extent : ClassificationExtent) (s : State) : Host.Outcome State Fault Refusal :=
  match extent with
  | .whole => settle (State.classify allTests s)
  | .tests n => settle (State.classify n s)

/-! ### STAB takes what ICLS presents (R77, R80) -/

/-- The first event presented for a slot: STAB takes the events of one record in the order ICLS presents
them (R77). -/
def State.nextPresented (s : State) (i : Slot) : Option Presented := s.presented.find? fun e => decide (e.slot = i)

/-- The first event presented for a slot is taken from the list. -/
def State.popPresented (s : State) (i : Slot) : State :=
  { s with presented := s.presented.eraseP fun e => decide (e.slot = i) }

/-- SIGHTING (R25 to R28, R80): a void sighting changes nothing. -/
def execSighting (i : Slot) (s : State) : Host.Outcome State Fault Refusal :=
  match s.nextPresented i with
  | some { slot := _, address := a, kind := .sighting } =>
    match s.matched i a with
    | some _ => settle ((s.popPresented i).confirmAwake i)
    | none => settle (s.popPresented i)
  | _ => settle s

/-- ANNOUNCEMENT (R85 to R88): a void announcement is that of an unknown announcer. -/
def execAnnouncement (i : Slot) (s : State) : Host.Outcome State Fault Refusal :=
  match s.nextPresented i with
  | some { slot := _, address := a, kind := .announcement op sequence lease } =>
    match s.matched i a with
    | some st => settle ((s.popPresented i).takeAnnouncement i st op sequence lease)
    | none => settle ((s.popPresented i).post .unknownAnnouncer (.address a))
  | _ => settle s

/-- WAKE_TRIGGER (R37, R38, R80): the frame of a void trigger is discarded as a stray. -/
def execWakeTrigger (i : Slot) (s : State) : Host.Outcome State Fault Refusal :=
  match s.nextPresented i with
  | some { slot := _, address := a, kind := .trigger cause frame } =>
    match s.matched i a with
    | some st => settle ((s.popPresented i).iclsTrigger i st cause frame)
    | none =>
      match frame with
      | some j => settle ((s.popPresented i).freeIntake j)
      | none => settle (s.popPresented i)
  | _ => settle s

/-- SHED (R80, R93): a void raise changes nothing. -/
def execShed (i : Slot) (s : State) : Host.Outcome State Fault Refusal :=
  match s.nextPresented i with
  | some { slot := _, address := a, kind := .shed } =>
    match s.matched i a with
    | some _ => settle ((s.popPresented i).raiseShed i)
    | none => settle (s.popPresented i)
  | _ => settle s

end Sys2Proof.Machine
end

