-- ==== Sys2Proof/Machine/Reset.lean ====
section
/-! DEFINITION. What the two resets leave (R203), and HARD_RESET. The row SOFT_RESET stands in Port.lean. -/

namespace Sys2Proof.Machine

/-- R140: a transfer on the emission port is ended with the abort mark. -/
def State.abortTransfer (s : State) : State :=
  match s.emit.sending with
  | some (_, t) => s.endTransfer t .aborted
  | none => s

/-- The outputs after a reset: a transfer ends with the abort mark (R140), a message being sent is cut off
(R144, R164). -/
def State.resetOutputs (s : State) : Outputs := s.abortTransfer.out.endMessage .cutOff

/-- R1: a record after soft reset: VACANT, its generation raised by 1 modulo 256. -/
def Record.softReset (r : Record) : Record := { generation := r.generation + 1#8, station := none }

/-- R164: STEER after soft reset keeps its sequence counter; R208: its receiver waits for an idle line. -/
def Steer.softReset (t : Steer) : Steer := { Steer.reset with sequence := t.sequence }

/-- R202, R204: MPORT after soft reset keeps the configuration and INT_ENABLE. Events issued and not yet
taken are dropped (assumption log 13), and no transaction is in progress (R203). -/
def Mport.softReset (m : Mport) : Mport := { Mport.reset with intEnable := m.intEnable, settings := m.settings }

/-- R203: the soft reset. The queue of commands and the record of outputs are outside the part's reset
contents (assumption log 17). -/
def State.softReset (s : State) : State :=
  { State.reset with
    stab := tmap Record.softReset s.stab
    steer := s.steer.softReset
    mport := s.mport.softReset
    out := s.resetOutputs
    pending := s.pending }

/-- R203: the hard reset. -/
def State.hardReset (s : State) : State :=
  { State.reset with out := s.resetOutputs, pending := s.pending }

/-- HARD_RESET (R203). -/
def execHardReset (s : State) : Host.Outcome State Fault Refusal := settle s.hardReset

end Sys2Proof.Machine
end

