-- ==== Sys2Proof/Machine/Port.lean ====
section
/-! DEFINITION. MPORT (12): write transactions and the rows that write one field, TAKE, and what every read of the register window returns. -/

namespace Sys2Proof.Machine

/-! ### What a write transaction writes (R200, R201) -/

/-- The byte a transaction that starts at `start` writes at register `r`, if it writes one. -/
def writtenAt (start : Nat) (data : List Byte) (r : Nat) : Option Byte :=
  if start ≤ r then data[r - start]? else none

/-- R201: a field of `len` bytes at register `base`, the new bytes with the bytes not written. -/
def mergeField (w : Nat → Option Byte) (base len old : Nat) : Nat :=
  beNat ((List.range len).map fun k => (w (base + k)).getD ((beBytes len old).getD k 0#8))

/-- Whether a byte of the `len` registers from `base` on is written. -/
def touches (w : Nat → Option Byte) (base len : Nat) : Bool := (List.range len).any fun k => (w (base + k)).isSome

/-! ### Configuration fields (R198, R204) -/

/-- Table 12-3: the range of a timing field. -/
def timingAccepts (f : TimingField) (b : Byte) : Bool :=
  match f with
  | .wakeInterval => decide (1 ≤ b.toNat)
  | .wakeAttemptLimit => decide (1 ≤ b.toNat ∧ b.toNat ≤ 15)
  | .steerAckTimeout => decide (1 ≤ b.toNat)
  | .steerRetryLimit => decide (b.toNat ≤ 7)

/-- A timing field replaced. -/
def Settings.setTiming (c : Settings) (f : TimingField) (b : Byte) : Settings :=
  match f with
  | .wakeInterval => { c with wakeInterval := b }
  | .wakeAttemptLimit => { c with wakeAttemptLimit := b }
  | .steerAckTimeout => { c with steerAckTimeout := b }
  | .steerRetryLimit => { c with steerRetryLimit := b }

/-- Table 12-2: the register of a timing field. -/
def timingRegister (f : TimingField) : Nat :=
  match f with
  | .wakeInterval => 0x01A
  | .wakeAttemptLimit => 0x01B
  | .steerAckTimeout => 0x01C
  | .steerRetryLimit => 0x01D

/-- R204: one timing field written: taken when in range, else ignored with CONFIG_REFUSED set. -/
def State.writeTiming (s : State) (f : TimingField) (b : Byte) : State :=
  if timingAccepts f b then { s with mport := { s.mport with settings := s.mport.settings.setTiming f b } }
  else s.refuseConfig

/-- Table 12-3: the range of a notice parameter. -/
def noticeAccepts (f : NoticeField) (b : Byte) : Bool :=
  match f with
  | .noticeTrigger => decide (1 ≤ b.toNat ∧ b.toNat ≤ 32)
  | .noticeHoldoff => true
  | .noticeClassMask => true

/-- A notice parameter replaced; bits 3 to 7 of a class mask are ignored (Table 12-2). -/
def Settings.setNotice (c : Settings) (f : NoticeField) (b : Byte) : Settings :=
  match f with
  | .noticeTrigger => { c with noticeTrigger := b }
  | .noticeHoldoff => { c with noticeHoldoff := b }
  | .noticeClassMask => { c with noticeClassMask := b.setWidth 3 }

/-- Table 12-2: the register of a notice parameter. -/
def noticeRegister (f : NoticeField) : Nat :=
  match f with
  | .noticeTrigger => 0x01E
  | .noticeHoldoff => 0x01F
  | .noticeClassMask => 0x020

/-- R198, R204: one notice parameter written. -/
def State.writeNotice (s : State) (f : NoticeField) (b : Byte) : State :=
  if noticeAccepts f b then { s with mport := { s.mport with settings := s.mport.settings.setNotice f b } }
  else s.refuseConfig

/-! ### Recognition values (R205) -/

/-- R205: PartAddress is not taken when it is a group address or the address of an enrolled station. -/
def State.refusesPartAddress (s : State) (a : Address) : Bool := isGroup a || (s.findAddress a).isSome

/-- R205 in STOPPED: the two types take the values written; PartAddress is checked. -/
def State.takeRecognition (s : State) (w : Nat → Option Byte) : State :=
  let c := s.mport.settings
  let a : Address := BitVec.ofNat 48 (mergeField w 0x010 6 c.partAddress.toNat)
  let typed : State := { s with mport := { s.mport with settings :=
    { c with queryType := BitVec.ofNat 16 (mergeField w 0x016 2 c.queryType.toNat)
             announceType := BitVec.ofNat 16 (mergeField w 0x018 2 c.announceType.toNat) } } }
  if touches w 0x010 6 then
    if s.refusesPartAddress a then typed.refuseConfig
    else { typed with mport := { typed.mport with settings := { typed.mport.settings with partAddress := a } } }
  else typed

/-- R205: NAME_WRITE_REFUSED is set, or stays set. -/
def State.refuseName (s : State) : State := { s with mport := { s.mport with nameWriteRefused := true } }

/-- R205: a write of bytes of the recognition values, 0x010 to 0x019. -/
def State.writeRecognition (s : State) (w : Nat → Option Byte) : State :=
  if touches w 0x010 10 then
    if s.steer.mode = .stopped then s.takeRecognition w else s.refuseName
  else s

/-! ### The register block (R201, R202, R203) -/

/-- A register's byte applied when it is written. -/
def whenWritten (b : Option Byte) (s : State) (f : State → Byte → State) : State :=
  match b with
  | some x => f s x
  | none => s

/-- R202: the stored bits of CONTROL. RUN is stored with SOFT_RESET written 1 too, and reads so until the soft reset
is taken (R203; DESIGN CHOICE, assumption log 31). -/
def State.storeControl (s : State) (b : Byte) : State :=
  { s with mport := { s.mport with run := b.getLsbD 0, intEnable := b.getLsbD 2 } }

/-- R201: every configuration field the transaction wrote, each checked on its own. -/
def State.writeFields (s : State) (w : Nat → Option Byte) : State :=
  let timed := [TimingField.wakeInterval, .wakeAttemptLimit, .steerAckTimeout, .steerRetryLimit].foldl
    (fun t f => whenWritten (w (timingRegister f)) t fun u b => u.writeTiming f b) (s.writeRecognition w)
  [NoticeField.noticeTrigger, .noticeHoldoff, .noticeClassMask].foldl
    (fun t f => whenWritten (w (noticeRegister f)) t fun u b => u.writeNotice f b) timed

/-- R202: the flag clears a byte of STATUS byte 1 calls for. -/
def statusEvents (b : Byte) : List PortEvent :=
  [(0, StickyFlag.cmdOverrun), (1, .noticeOverrun), (2, .configRefused), (3, .nameWriteRefused)].filterMap
    fun x => if b.getLsbD x.1 then some (.clear x.2) else none

/-- R202, R203: the events a byte of CONTROL calls for, with RUN at `run` before the store. With
SOFT_RESET written 1, a GO or a RUN change of the same transaction is not acted on. -/
def controlEvents (run : Bool) (b : Byte) : List PortEvent :=
  if b.getLsbD 7 then [.softReset]
  else
    (if b.getLsbD 0 = run then [] else if b.getLsbD 0 then [.runSet] else [.runCleared]) ++
      (if b.getLsbD 1 then [.go] else [])

/-- The events a transaction's bytes call for. -/
def portEvents (run : Bool) (w : Nat → Option Byte) : List PortEvent :=
  ((w 0x009).map statusEvents).getD [] ++ ((w 0x004).map (controlEvents run)).getD []

/-- R201: the store and the checks of one write event in the register block, and the events it issues. -/
def State.writeRegisters (s : State) (w : Nat → Option Byte) : State :=
  let t := (whenWritten (w 0x004) s State.storeControl).writeFields w
  { t with mport := { t.mport with issued := t.mport.issued ++ portEvents s.mport.run w } }

/-- R200, R201: the write event of a transaction. The register block is written as far as its fields are
writable, the command area within its 256 bytes; every other block ignores writes. A transaction stays in the
block of its start address, so none writes both a command record and CONTROL (R200 against a sentence of
R201; DESIGN CHOICE, assumption log 28). -/
def State.writeEvent (s : State) (addr : Half) (data : List Byte) : State :=
  let start := windowAddress addr
  if start < 0x100 then s.writeRegisters (writtenAt start data)
  else if start < 0x200 then
    { s with mport := { s.mport with commandArea := Memory.writeBytes s.mport.commandArea (start - 0x100) data } }
  else s

/-! ### Transactions (R200, R201, R203) -/

/-- NCS rises: the write event of a write in progress, whose complete data bytes are those received so far
and `more`; a read in progress ends. -/
def State.raiseNcs (s : State) (more : List Byte) : State :=
  match s.mport.spi with
  | some (.write addr data) => { s with mport := { s.mport with spi := none } }.writeEvent addr (data ++ more)
  | some .read => { s with mport := { s.mport with spi := none } }
  | none => s

/-- A transaction begins. NCS has risen before it, and a soft reset that a write has issued is taken before it:
the next transaction finds the part in STOPPED (R203). -/
def State.beginTransaction (s : State) : State :=
  let t := s.raiseNcs []
  if PortEvent.softReset ∈ t.mport.issued then t.softReset else t

/-- A transaction is in progress. -/
def State.holdTransaction (s : State) (t : SpiTransaction) : State := { s with mport := { s.mport with spi := some t } }

/-- REGISTER_WRITE (R200, R201): one write event, taken when NCS rises. With no write in progress a finish is
what is left of a transaction that a hard reset has ended: nothing of it is written (R200). -/
def execRegisterWrite (part : WritePart) (data : List Byte) (s : State) : Host.Outcome State Fault Refusal :=
  match part with
  | .start addr => settle (s.beginTransaction.holdTransaction (.write addr data))
  | .finish =>
    match s.mport.spi with
    | some (.write _ _) => settle (s.raiseNcs data)
    | some .read => settle s
    | none => settle s
  | .whole addr => settle (s.beginTransaction.writeEvent addr data)

/-! ### The rows that write one field, and the rows of the events a write issues

A row of an event takes the one a write has issued; with none issued it is a write transaction of its own
with that event (assumption log 3). -/

/-- The state in which the row of an event acts: as it is when the event is issued, else with a transaction
begun. -/
def State.unlessIssued (s : State) (issued : Bool) : State := if issued then s else s.beginTransaction

/-- SOFT_RESET (R203). With none issued and a write in progress, the soft reset that this write brings at its end
is taken before the row's own, so that the two are two events (DESIGN CHOICE, assumption log 3). -/
def execSoftReset (s : State) : Host.Outcome State Fault Refusal :=
  settle (s.unlessIssued (decide (PortEvent.softReset ∈ s.mport.issued))).softReset

/-- INT_ENABLE_WRITE (R198, R202). -/
def execIntEnableWrite (value : Bool) (s : State) : Host.Outcome State Fault Refusal :=
  let t := s.beginTransaction
  settle { t with mport := { t.mport with intEnable := value } }

/-- RUN set, issued or written now; it is no event when RUN is 1 already. -/
def State.runSet (s : State) : State :=
  match s.mport.nextRun with
  | some .runSet => { s with mport := s.mport.takeIssued .runSet }.takeRunSet
  | some _ => s
  | none => if s.mport.run then s else { s with mport := { s.mport with run := true } }.takeRunSet

/-- RUN cleared, issued or written now; it is no event when RUN is 0 already. -/
def State.runCleared (s : State) : State :=
  match s.mport.nextRun with
  | some .runCleared => { s with mport := s.mport.takeIssued .runCleared }.takeRunCleared
  | some _ => s
  | none => if s.mport.run then { s with mport := { s.mport with run := false } }.takeRunCleared else s

/-- RUN_SET (R157, R158). With none issued and a write in progress, the change of RUN that this write brings is the
one the row finds: taken when it is the row's, else the row has no effect (DESIGN CHOICE, assumption log 3). -/
def execRunSet (s : State) : Host.Outcome State Fault Refusal :=
  settle (s.unlessIssued s.mport.nextRun.isSome).runSet

/-- RUN_CLEARED (R157, R158, R160). With none issued and a write in progress, the change of RUN that this write
brings is the one the row finds: taken when it is the row's, else the row has no effect (DESIGN CHOICE, assumption
log 3). -/
def execRunCleared (s : State) : Host.Outcome State Fault Refusal :=
  settle (s.unlessIssued s.mport.nextRun.isSome).runCleared

/-- GO (R167). With none issued and a write in progress, NCS rises first: a GO that this write brings is the GO
the row takes, and the two are one event (DESIGN CHOICE, assumption log 3). -/
def execGo (s : State) : Host.Outcome State Fault Refusal :=
  let t := s.unlessIssued (decide (PortEvent.go ∈ s.mport.issued))
  settle { t with mport := t.mport.takeIssued .go }.takeGo

/-- The clear of a sticky flag, taken from the list where it was issued. -/
def State.takeClear (s : State) (f : StickyFlag) : State :=
  { s with mport := s.mport.takeIssued (.clear f) }.clearSticky f

/-- The row of a clear: the one issued, or a write of its own. The clear that a write in progress brings at its end is
the one taken (DESIGN CHOICE, assumption log 3). -/
def State.clearRow (s : State) (f : StickyFlag) : State :=
  (s.unlessIssued (decide (PortEvent.clear f ∈ s.mport.issued))).takeClear f

/-- CMD_OVERRUN_CLEAR (R168). -/
def execCmdOverrunClear (s : State) : Host.Outcome State Fault Refusal := settle (s.clearRow .cmdOverrun)

/-- NOTICE_OVERRUN_CLEAR (R195). -/
def execNoticeOverrunClear (s : State) : Host.Outcome State Fault Refusal := settle (s.clearRow .noticeOverrun)

/-- CONFIG_REFUSED_CLEAR (R202). -/
def execConfigRefusedClear (s : State) : Host.Outcome State Fault Refusal := settle (s.clearRow .configRefused)

/-- NAME_WRITE_REFUSED_CLEAR (R202). -/
def execNameWriteRefusedClear (s : State) : Host.Outcome State Fault Refusal := settle (s.clearRow .nameWriteRefused)

/-- CONFIGURATION_WRITE (R204). -/
def execConfigurationWrite (f : TimingField) (value : Byte) (s : State) : Host.Outcome State Fault Refusal :=
  settle (s.beginTransaction.writeTiming f value)

/-- RECOGNITION_VALUE_WRITE (R205): bytes from register 0x010 + `first` on. -/
def execRecognitionValueWrite (first : Nat) (bytes : List Byte) (s : State) : Host.Outcome State Fault Refusal :=
  settle (s.beginTransaction.writeRecognition (writtenAt (0x010 + first) bytes))

/-- NOTICE_PARAMETER_WRITE (R198, R204). -/
def execNoticeParameterWrite (f : NoticeField) (value : Byte) (s : State) : Host.Outcome State Fault Refusal :=
  settle (s.beginTransaction.writeNotice f value)

/-! ### TAKE (R194) -/

/-- R194: a read that begins at the first byte returns the head's record and removes it; one that begins at
another byte is a peek. -/
def State.readTake (s : State) (first : Nat) : State :=
  if first = 0 then { s with nq := s.nq.dropHead, out := { s.out with capture := s.nq.window } }
  else { s with out := { s.out with capture := s.nq.window.drop first } }

/-- TAKE (R194, R200): the read event is taken at the second address byte, and what follows does not undo it. -/
def execTake (part : ReadPart) (s : State) : Host.Outcome State Fault Refusal :=
  match part with
  | .start first => settle ((s.beginTransaction.readTake first).holdTransaction .read)
  | .finish =>
    match s.mport.spi with
    | some .read => settle (s.raiseNcs [])
    | some (.write _ _) => settle s
    | none => settle s
  | .whole first => settle (s.beginTransaction.readTake first)

/-! ### What a read returns (Table 12-2, R193, R200, R202) -/

/-- A bit as a number. -/
def bitAt (b : Bool) (k : Nat) : Nat := if b then 2 ^ k else 0

/-- CONTROL as it reads: GO and SOFT_RESET read 0. -/
def State.controlByte (s : State) : Byte := BitVec.ofNat 8 (bitAt s.mport.run 0 + bitAt s.mport.intEnable 2)

/-- STATUS.BUSY (R166). -/
def Engine.isBusy : Engine → Bool
  | .idle => false
  | .busy _ _ => true

/-- STATUS byte 0. -/
def State.statusByte0 (s : State) : Byte :=
  BitVec.ofNat 8 (bitAt s.cmde.engine.isBusy 0 + 2 * s.steer.mode.number + 8 * s.steer.link.number)

/-- STATUS byte 1. -/
def State.statusByte1 (s : State) : Byte :=
  BitVec.ofNat 8 (bitAt (s.sticky .cmdOverrun) 0 + bitAt (s.sticky .noticeOverrun) 1 +
    bitAt (s.sticky .configRefused) 2 + bitAt (s.sticky .nameWriteRefused) 3)

/-- The configuration registers, 0x010 to 0x020. -/
def Settings.bytes (c : Settings) : List Byte :=
  beBytes 6 c.partAddress.toNat ++ beBytes 2 c.queryType.toNat ++ beBytes 2 c.announceType.toNat ++
    [c.wakeInterval, c.wakeAttemptLimit, c.steerAckTimeout, c.steerRetryLimit, c.noticeTrigger, c.noticeHoldoff,
     c.noticeClassMask.setWidth 8]

/-- The register block as it reads. -/
def State.registerByte (s : State) (r : Nat) : Byte :=
  if r < 4 then byteAt Config.identBytes r
  else if r = 0x004 then s.controlByte
  else if r = 0x008 then s.statusByte0
  else if r = 0x009 then s.statusByte1
  else if 0x010 ≤ r then byteAt s.mport.settings.bytes (r - 0x010)
  else 0#8

/-- The whole block of a start address, as a read event captures it (R200), with the block's first
address. A start in the take window is shown here as the peek it is at any byte but the first; TAKE is
the row that removes the head. -/
def State.blockAt (s : State) (start : Nat) : Nat × List Byte :=
  if start < 0x100 then (0x000, (List.range 256).map s.registerByte)
  else if start < 0x200 then (0x100, Memory.bytes s.mport.commandArea 0 256)
  else if start < 0x300 then (0x200, Memory.bytes s.cmde.resultArea 0 256)
  else if start < 0x310 then (0x300, s.nq.window)
  else if start < 0x320 then (0x310, s.nq.window)
  else (start, [])

/-- The `n` data bytes a read transaction from `addr` returns: 0x00 beyond the block's end and in no
block (R200). The transaction finds a soft reset issued before it taken (R203). -/
def State.readWindow (s : State) (addr : Half) (n : Nat) : List Byte :=
  let start := windowAddress addr
  let block := s.beginTransaction.blockAt start
  (List.range n).map fun k => byteAt block.2 (start - block.1 + k)

/-! ### MISO (Table 12-1, R200) -/

/-- What MISO carries during one byte: nothing, being high-impedance; a byte the part drives; or a byte for
which the manual gives no value (assumption log 29). -/
inductive Miso where
  | highImpedance
  | driven (b : Byte)
  | unstated
  deriving DecidableEq, Repr

/-- MISO while byte `k` of a transaction is on the wire, with the bytes MOSI has brought before it, from the
state at the read event. A transaction that is ignored has 0x00 throughout, and whether it is ignored is not
known before its second address byte, so bytes 0 to 2 are 0x00 (DEDUCED, assumption log 29). A read has one
turnaround byte of 0x00 and then its data. For the data phase of a write the manual gives no value. A hard
reset that ends a read while NCS stays low does not change the rest of it: what was captured at the read event
goes on (DESIGN CHOICE, assumption log 29). -/
def State.misoDuring (s : State) (mosi : List Byte) (k : Nat) : Miso :=
  if k < 3 then .driven 0x00#8
  else match meaningOfBytes mosi with
    | .write _ _ => .unstated
    | .read addr => if k = 3 then .driven 0x00#8 else .driven (byteAt (s.readWindow addr (k - 3)) (k - 4))
    | .ignored => .driven 0x00#8

/-- R200: MISO by the level of NCS. -/
def State.miso (s : State) (ncs : Bool) (mosi : List Byte) (k : Nat) : Miso :=
  if ncs then .highImpedance else s.misoDuring mosi k

end Sys2Proof.Machine
end

