-- ==== Sys2Proof/Machine/Time.lean ====
section
/-! DEFINITION. The time bases: the seconds boundary and lease expiry (02), the wake interval (07), the millisecond boundary and the holdoff (11). The ack timeout stands in Steering.lean. -/

namespace Sys2Proof.Machine

/-! ### Leases (R24, R39) -/

/-- R24: `n` boundaries of the seconds time base pass at a lease. The boundary at which the lease
remaining would go from 1 to 0 leaves it at 1 and marks the expiry as due (assumption log 7). -/
def LeaseRun.lower (l : LeaseRun) (n : Nat) : LeaseRun :=
  if n < l.remaining.toNat then { l with remaining := l.remaining - BitVec.ofNat 16 n }
  else { remaining := 1#16, runOut := true }

/-- R24: the countdown runs in ASLEEP alone. -/
def StationState.passSeconds (q : StationState) (n : Nat) : StationState :=
  match q with
  | .asleep (some l) => .asleep (some (l.lower n))
  | .asleep none => q
  | .awake => q
  | .entering _ => q
  | .waking _ _ => q
  | .leaving _ _ => q
  | .lapsed => q
  | .retiring => q

/-- `n` boundaries of the seconds time base pass at one record. -/
def Record.passSeconds (r : Record) (n : Nat) : Record :=
  { r with station := r.station.map fun st => { st with state := st.state.passSeconds n } }

/-- `n` boundaries of the seconds time base pass at every record. -/
def State.passSeconds (s : State) (n : Nat) : State := { s with stab := tmap (·.passSeconds n) s.stab }

/-- Whether a lease expiry is due at a state. -/
def StationState.leaseDue (q : StationState) : Bool :=
  match q with
  | .asleep (some l) => l.runOut
  | .asleep none => false
  | .awake => false
  | .entering _ => false
  | .waking _ _ => false
  | .leaving _ _ => false
  | .lapsed => false
  | .retiring => false

/-- R39: the lease expiry of one record, taken if it is due. -/
def State.expireLease (s : State) (i : Slot) : State :=
  match s.station i with
  | some st => if st.state.leaseDue then s.wakeUp i st .lease else s
  | none => s

/-- LEASE_EXPIRY (R24, R39): `elapsed` seconds boundaries pass, and the record's expiry is taken if its
lease has run out by then (assumption log 5). -/
def execLeaseExpiry (i : Slot) (elapsed : Nat) (s : State) : Host.Outcome State Fault Refusal :=
  settle ((s.passSeconds elapsed).expireLease i)

/-- LEASE_SECOND_BOUNDARY (R24): one boundary of the seconds time base. -/
def execLeaseSecondBoundary (s : State) : Host.Outcome State Fault Refusal := settle (s.passSeconds 1)

/-! ### The wake interval (R114 to R116) -/

/-- R114: `n` boundaries of the 100 ms time base pass at every waking context; 0 is a timer that has run
out (assumption log 8). -/
def State.passUnits (s : State) (n : Nat) : State :=
  { s with wake := tmap (fun c => c.map fun x => { x with remaining := x.remaining - n }) s.wake }

/-- R115: the interval expiry of a slot: a further attempt and a restart of the timer, or the exhaustion.
A context whose record is VACANT (no run reaches it, assumption log 14) is removed. -/
def State.takeInterval (s : State) (i : Slot) (a : Address) : State :=
  match s.station i with
  | none => s.cancelWaking i
  | some st =>
    if st.wakeAttempts < s.mport.settings.wakeAttemptLimit.toNat then (s.attempt i st a).startInterval i a
    else (s.cancelWaking i).exhaustWaking i

/-- R115: the interval expiry of one slot, taken if its timer has run out. -/
def State.expireInterval (s : State) (i : Slot) : State :=
  match s.wake[i.val] with
  | some c => if c.remaining = 0 then s.takeInterval i c.address else s
  | none => s

/-- INTERVAL_EXPIRY (R114, R115): `elapsed` boundaries of the 100 ms time base pass, and the slot's
expiry is taken if its timer has run out by then (assumption log 5). -/
def execIntervalExpiry (i : Slot) (elapsed : Nat) (s : State) : Host.Outcome State Fault Refusal :=
  settle ((s.passUnits elapsed).expireInterval i)

/-! ### Ages (R196) -/

/-- NOTICE_HOLDOFF (R196, R197): `elapsed` millisecond boundaries pass, up to one at which a notice
reaches its holdoff; NINT follows (assumption log 5). -/
def execNoticeHoldoff (elapsed : Nat) (s : State) : Host.Outcome State Fault Refusal :=
  settle (s.passMilliseconds elapsed)

/-- AGE_BOUNDARY (R196): one boundary of the millisecond time base. -/
def execAgeBoundary (s : State) : Host.Outcome State Fault Refusal := settle (s.passMilliseconds 1)

end Sys2Proof.Machine
end

