-- ==== Sys2Proof/Machine/Dispatch.lean ====
section
/-! DEFINITION. One arm for every command. -/

namespace Sys2Proof.Machine

/-- The effect of a command on everything but the queue. -/
def exec (i : Instr) (s : State) : Host.Outcome State Fault Refusal :=
  match i with
  | .hardReset => Sys2Proof.Machine.execHardReset s
  | .softReset => Sys2Proof.Machine.execSoftReset s
  | .registerWrite part data => Sys2Proof.Machine.execRegisterWrite part data s
  | .runSet => Sys2Proof.Machine.execRunSet s
  | .runCleared => Sys2Proof.Machine.execRunCleared s
  | .go => Sys2Proof.Machine.execGo s
  | .intEnableWrite value => Sys2Proof.Machine.execIntEnableWrite value s
  | .cmdOverrunClear => Sys2Proof.Machine.execCmdOverrunClear s
  | .noticeOverrunClear => Sys2Proof.Machine.execNoticeOverrunClear s
  | .configRefusedClear => Sys2Proof.Machine.execConfigRefusedClear s
  | .nameWriteRefusedClear => Sys2Proof.Machine.execNameWriteRefusedClear s
  | .configurationWrite field value => Sys2Proof.Machine.execConfigurationWrite field value s
  | .recognitionValueWrite first bytes => Sys2Proof.Machine.execRecognitionValueWrite first bytes s
  | .noticeParameterWrite field value => Sys2Proof.Machine.execNoticeParameterWrite field value s
  | .take part => Sys2Proof.Machine.execTake part s
  | .stationCreate upTo => Sys2Proof.Machine.execStationCreate upTo s
  | .stationSetTemplate upTo => Sys2Proof.Machine.execStationSetTemplate upTo s
  | .stationClearTemplate upTo => Sys2Proof.Machine.execStationClearTemplate upTo s
  | .stationAddIdentifier upTo => Sys2Proof.Machine.execStationAddIdentifier upTo s
  | .stationRemoveIdentifier upTo => Sys2Proof.Machine.execStationRemoveIdentifier upTo s
  | .stationAttachRule upTo => Sys2Proof.Machine.execStationAttachRule upTo s
  | .stationDetachRule upTo => Sys2Proof.Machine.execStationDetachRule upTo s
  | .stationRead upTo => Sys2Proof.Machine.execStationRead upTo s
  | .stationSleep upTo => Sys2Proof.Machine.execStationSleep upTo s
  | .stationWake upTo => Sys2Proof.Machine.execStationWake upTo s
  | .stationRetire upTo => Sys2Proof.Machine.execStationRetire upTo s
  | .stationClearCounters upTo => Sys2Proof.Machine.execStationClearCounters upTo s
  | .stationFind upTo => Sys2Proof.Machine.execStationFind upTo s
  | .ruleDefine upTo => Sys2Proof.Machine.execRuleDefine upTo s
  | .ruleDelete upTo => Sys2Proof.Machine.execRuleDelete upTo s
  | .ruleRead upTo => Sys2Proof.Machine.execRuleRead upTo s
  | .steerRestart upTo => Sys2Proof.Machine.execSteerRestart upTo s
  | .unknownCommandCode upTo => Sys2Proof.Machine.execUnknownCommandCode upTo s
  | .frameArrival part => Sys2Proof.Machine.execFrameArrival part s
  | .frameClassification extent => Sys2Proof.Machine.execFrameClassification extent s
  | .sighting slot => Sys2Proof.Machine.execSighting slot s
  | .announcement slot => Sys2Proof.Machine.execAnnouncement slot s
  | .wakeTrigger slot => Sys2Proof.Machine.execWakeTrigger slot s
  | .shed slot => Sys2Proof.Machine.execShed slot s
  | .leaseExpiry slot elapsed => Sys2Proof.Machine.execLeaseExpiry slot elapsed s
  | .intervalExpiry slot elapsed => Sys2Proof.Machine.execIntervalExpiry slot elapsed s
  | .replyJob => Sys2Proof.Machine.execReplyJob s
  | .probeReplyJob => Sys2Proof.Machine.execProbeReplyJob s
  | .sleepAckJob => Sys2Proof.Machine.execSleepAckJob s
  | .transmissionBegin => Sys2Proof.Machine.execTransmissionBegin s
  | .transmissionCompletion => Sys2Proof.Machine.execTransmissionCompletion s
  | .steerSend => Sys2Proof.Machine.execSteerSend s
  | .ack run => Sys2Proof.Machine.execAck run s
  | .nak run => Sys2Proof.Machine.execNak run s
  | .steerMessageDiscarded run => Sys2Proof.Machine.execSteerMessageDiscarded run s
  | .ackTimeout elapsed => Sys2Proof.Machine.execAckTimeout elapsed s
  | .deferredStart => Sys2Proof.Machine.execDeferredStart s
  | .noticeHoldoff elapsed => Sys2Proof.Machine.execNoticeHoldoff elapsed s
  | .leaseSecondBoundary => Sys2Proof.Machine.execLeaseSecondBoundary s
  | .ageBoundary => Sys2Proof.Machine.execAgeBoundary s
  | .lineIdle => Sys2Proof.Machine.execLineIdle s

end Sys2Proof.Machine
end

