-- ==== Sys2Proof/Machine/Step.lean ====
section
/-! DEFINITION. A step of the part: the command at the front of the queue is taken; on an empty queue the part idles. -/

namespace Sys2Proof.Machine

/-- One step. Each command is one event taken whole (R21). With no event to take the block idles, long enough
for a message being sent to end (assumption logs 1 and 19). -/
def step (s : State) : Host.Outcome State Fault Refusal :=
  match s.pending with
  | [] => .next s.endMessage
  | c :: rest => exec c { s with pending := rest }

/-- The state with the command a word spells put at the front of the queue; the state itself where the
word spells none, which is every word: the table gives no row any bits. -/
def State.withFetchWord (s : State) (nbits w : Nat) : State :=
  match decodeTableWord nbits w with
  | some c => { s with pending := c :: s.pending }
  | none => s

end Sys2Proof.Machine
end

