-- ==== Sys2Proof/Safety.lean ====
section
/-! DEFINITION. What holds of the part between events: one definition for each statement the chapters make about the whole of a block. Each is meant to be kept by every command. -/

namespace Sys2Proof.Machine

/-! ### Pins, areas, configuration -/

/-- R197, R76: the two output pins show their conditions. -/
def State.PinsDriven (s : State) : Prop := s.nint = s.nintAsserted ∧ s.intakeReady = s.readyForFrames

/-- An area in canonical form whose offsets lie within its 256 bytes (R200). -/
def Memory.Fits (m : Memory) : Prop := Memory.wf m = true ∧ ∀ x ∈ m, x.1 < Config.areaSize

/-- The latched command, if there is one, is such an area (R166). -/
def Engine.Fits : Engine → Prop
  | .idle => True
  | .busy c _ => Memory.Fits c

/-- The command area, the result area and the latched command are in canonical form. -/
def State.AreasFit (s : State) : Prop :=
  Memory.Fits s.mport.commandArea ∧ Memory.Fits s.cmde.resultArea ∧ s.cmde.engine.Fits

/-- Table 12-3: every configuration value lies in its range. -/
def Settings.InRange (c : Settings) : Prop :=
  isGroup c.partAddress = false ∧ 1 ≤ c.wakeInterval.toNat ∧
    1 ≤ c.wakeAttemptLimit.toNat ∧ c.wakeAttemptLimit.toNat ≤ 15 ∧ 1 ≤ c.steerAckTimeout.toNat ∧
    c.steerRetryLimit.toNat ≤ 7 ∧ 1 ≤ c.noticeTrigger.toNat ∧ c.noticeTrigger.toNat ≤ 32

/-! ### Station Table, map and rules -/

/-- R4: no two enrolled stations hold one address; an enrolled address is unicast, not all zero, and not
PartAddress. -/
def State.AddressesUnique (s : State) : Prop :=
  (∀ i j a b, s.station i = some a → s.station j = some b → a.address = b.address → i = j) ∧
    ∀ i a, s.station i = some a → isStationAddress a.address = true ∧ a.address ≠ s.mport.settings.partAddress

/-- Table 1-2: the states in which a record must hold a template. -/
def StationState.needsTemplate : StationState → Bool
  | .awake => false
  | .lapsed => false
  | .entering _ => true
  | .asleep _ => true
  | .waking _ _ => true
  | .leaving _ _ => true
  | .retiring => true

/-- R5 to R8, R113: the lists of a station hold at most 8 entries, its template is present where Table
1-2 says so and has 60 to 128 bytes, its lease remaining is at least 1, and its wake attempts are at most 15. -/
def Station.WellFormed (st : Station) : Prop :=
  st.identifiers.length ≤ Config.listCapacity ∧ st.rules.length ≤ Config.listCapacity ∧
    (st.state.needsTemplate = true → st.template.isSome = true) ∧
    (∀ bytes, st.template = some bytes → 60 ≤ bytes.length ∧ bytes.length ≤ 128) ∧
    (∀ l, st.state.leaseRemaining = some l → 1 ≤ l.toNat) ∧ st.wakeAttempts ≤ 15

/-- Every configuration value lies in its range and every enrolled station is well formed. -/
def State.StationsWellFormed (s : State) : Prop :=
  s.mport.settings.InRange ∧ ∀ i st, s.station i = some st → st.WellFormed

/-- R60: a span list that RULE_DEFINE may store: 1 to 8 spans, each within the first 1536 bytes and of 1 to 64
bytes, in rising order with none over another, and at most 256 bytes together. -/
def SpansValid (spans : List Span) : Prop :=
  1 ≤ spans.length ∧ spans.length ≤ 8 ∧
    (∀ x ∈ spans, x.offset ≤ 1535 ∧ 1 ≤ x.length ∧ x.length ≤ 64 ∧ x.offset + x.length ≤ 1536) ∧
    spans.Pairwise (fun x y => x.offset + x.length ≤ y.offset) ∧ (spans.map (·.length)).sum ≤ 256

/-- R59, R60: the span list of every DEFINED rule is valid. -/
def State.RulesValid (s : State) : Prop :=
  ∀ (n : RuleNumber) (b : RuleBody), s.rstore[n.val].body = some b → SpansValid b.spans

/-- R169: a command whose checks at CMDE are marked as passed has passed them, for the three commands whose
event stores what those checks allow: STATION_CREATE, STATION_SET_TEMPLATE and RULE_DEFINE. None of these
checks reads the state, so the marked command passes them still. -/
def State.ChecksPassed (s : State) : Prop :=
  ∀ c, s.cmde.engine = .busy c .checked →
    (commandCode c = 0x01#8 → createChecks s c = none) ∧ (commandCode c = 0x02#8 → setTemplateChecks s c = none) ∧
      (commandCode c = 0x20#8 → defineChecks s c = none)

/-- The key of a map entry (R47). -/
def MapEntry.key (e : MapEntry) : Identifier × Segment := (e.identifier, e.segment)

/-- R48: a map entry says what the list of the record in its slot says. -/
def State.Lists (s : State) (e : MapEntry) : Prop :=
  ∃ st, s.station e.slot = some st ∧ st.segment = e.segment ∧
    ({ identifier := e.identifier, wakeOnQuery := e.wakeOnQuery } : ListedIdentifier) ∈ st.identifiers

/-- R5, R47, R48: at most 256 entries, one for each key, the entries are exactly those of the lists, and
no list holds an identifier twice. -/
def State.MapMatches (s : State) : Prop :=
  s.idmap.length ≤ Config.mapCapacity ∧ (s.idmap.map MapEntry.key).Nodup ∧ (∀ e, e ∈ s.idmap ↔ s.Lists e) ∧
    ∀ i st, s.station i = some st → (st.identifiers.map (·.identifier)).Nodup

/-- Whether the record of a slot lists a rule. -/
def State.listsRule (s : State) (i : Slot) (n : RuleNumber) : Bool :=
  match s.station i with
  | some st => decide (n ∈ st.rules)
  | none => false

/-- R6, R66: every reference count is the number of records that list the rule, a listed rule is
DEFINED, and no list holds a rule twice. -/
def State.CountsMatch (s : State) : Prop :=
  (∀ n : RuleNumber, s.rstore[n.val].refCount = ((List.finRange 64).filter fun i => s.listsRule i n).length ∧
    ∀ i, s.listsRule i n = true → s.rstore[n.val].body.isSome = true) ∧
    ∀ i st, s.station i = some st → st.rules.Nodup

/-! ### Emission, answers, held frames, intake slots, wakings -/

/-- The entries of the emission queue, head first (R131). -/
def Emit.entries (e : Emit) : List Entry :=
  (match e.sending with
   | some (x, _) => [x]
   | none => []) ++ e.waiting

/-- The answer buffer an entry refers to. -/
def Entry.answerBuffer (x : Entry) : Option (Fin 8) :=
  match x.kind with
  | .answer b => some b
  | .wake _ _ => none
  | .held _ => none
  | .pass _ => none

/-- The held buffer an entry refers to. -/
def Entry.heldBuffer (x : Entry) : Option (Fin 16) :=
  match x.kind with
  | .answer _ => none
  | .wake _ _ => none
  | .held b => some b
  | .pass _ => none

/-- The intake slot an entry refers to. -/
def Entry.passSlot (x : Entry) : Option (Fin 4) :=
  match x.kind with
  | .answer _ => none
  | .wake _ _ => none
  | .held _ => none
  | .pass j => some j

/-- The answer buffers the queue's entries refer to. -/
def Emit.answers (e : Emit) : List (Fin 8) := e.entries.filterMap Entry.answerBuffer

/-- The held buffers the queue's entries refer to. -/
def Emit.helds (e : Emit) : List (Fin 16) := e.entries.filterMap Entry.heldBuffer

/-- The intake slots the queue's entries refer to. -/
def Emit.passes (e : Emit) : List (Fin 4) := e.entries.filterMap Entry.passSlot

/-- R96, R131: at most 16 entries, and the buffers in use are exactly those that one ANSWER entry
each refers to. -/
def AnswersMatch (e : Emit) (buffers : Vector (Option (List Byte)) 8) : Prop :=
  e.size ≤ Config.emissionCapacity ∧ e.answers.Nodup ∧ ∀ b : Fin 8, buffers[b.val].isSome = true ↔ b ∈ e.answers

/-- The HOLD buffer a record names (R11). -/
def State.heldBy (s : State) (i : Slot) : Option (Fin 16) := (s.station i).bind fun st => st.state.heldFrame

/-- Whether a held buffer is RESERVED. -/
def HeldBuffer.isReserved : HeldBuffer → Bool
  | .free => false
  | .reserved _ => true
  | .queued _ => false

/-- Whether a held buffer is QUEUED. -/
def HeldBuffer.isQueued : HeldBuffer → Bool
  | .free => false
  | .reserved _ => false
  | .queued _ => true

/-- R122: a RESERVED buffer is named by exactly one WAKING record, a QUEUED buffer by exactly one HELD
entry, and no other buffer by either. -/
def State.HoldMatches (s : State) : Prop :=
  s.emit.helds.Nodup ∧ (∀ b : Fin 16, s.hold[b.val].isQueued = true ↔ b ∈ s.emit.helds) ∧
    (∀ b : Fin 16, s.hold[b.val].isReserved = true ↔ ∃ i, s.heldBy i = some b) ∧
    ∀ i j b, s.heldBy i = some b → s.heldBy j = some b → i = j

/-- The intake slot whose frame a presented trigger carries. -/
def Presented.frame (p : Presented) : Option (Fin 4) :=
  match p.kind with
  | .trigger _ frame => frame
  | .sighting => none
  | .announcement _ _ _ => none
  | .shed => none

/-- What an intake slot is kept for, if it is kept. -/
inductive SlotUse where
  | arrival
  | classification
  | trigger
  | pass
  deriving DecidableEq, Repr

/-- The use an intake slot is in. -/
def IntakeSlot.use : IntakeSlot → Option SlotUse
  | .free => none
  | .arriving => some .arrival
  | .received _ => some .classification
  | .unclassified _ => some .classification
  | .triggered _ => some .trigger
  | .passing _ => some .pass

/-- R76, R77: what waits for classification, with its first test made or not, is what stands in arrival order, a slot kept for a trigger
is named by one presented trigger, a slot kept for pass-through by one PASS entry, and at most one
transfer is in progress. -/
def SlotsMatch (c : Icls) (presented : List Presented) (e : Emit) : Prop :=
  c.arrivals.Nodup ∧ (∀ j : Fin 4, c.slots[j.val].use = some .classification ↔ j ∈ c.arrivals) ∧
    (presented.filterMap Presented.frame).Nodup ∧
    (∀ j : Fin 4, c.slots[j.val].use = some .trigger ↔ j ∈ presented.filterMap Presented.frame) ∧
    e.passes.Nodup ∧ (∀ j : Fin 4, c.slots[j.val].use = some .pass ↔ j ∈ e.passes) ∧
    ∀ j k : Fin 4, c.slots[j.val].use = some .arrival → c.slots[k.val].use = some .arrival → j = k

/-- The station address of a record that is WAKING. -/
def Station.wakingAddress (st : Station) : Option Address :=
  match st.state with
  | .waking _ _ => some st.address
  | .awake => none
  | .entering _ => none
  | .asleep _ => none
  | .leaving _ _ => none
  | .lapsed => none
  | .retiring => none

/-- R111: a slot has a waking context exactly while its record is WAKING, with the record's address. -/
def State.ContextsMatch (s : State) : Prop :=
  ∀ i : Slot, s.wake[i.val].map (·.address) = (s.station i).bind Station.wakingAddress

/-! ### Steering -/

/-- Whether a request body is that of a station's request. -/
def RequestBody.isStation : RequestBody → Bool
  | .station _ => true
  | .clearAll => false

/-- Tables 9-2 and 9-3, R147, R153: what the mode allows of the link, the queue, the request in flight
and the timer. -/
def Steer.ShapeOk (t : Steer) : Prop :=
  (t.ackTimer.isSome = true ↔ t.inFlight.isSome = true ∧ t.link ≠ .down) ∧
  (t.deferredStart = true → t.mode = .stopped) ∧
    match t.mode with
    | .stopped => t.link = .idle ∧ t.queue = [] ∧ t.inFlight = none
    | .starting => t.link ≠ .idle ∧ t.queue = [] ∧ t.inFlight.map (·.body) = some .clearAll
    | .running => t.link ≠ .idle ∧ ∀ f, t.inFlight = some f → f.body.isStation = true
    | .stopping => t.link = .up ∧ t.queue = [] ∧ t.inFlight.map (·.body) = some .clearAll

/-- The states the stop teardown leaves (R44, R180). -/
def StationState.settled : StationState → Bool
  | .awake => true
  | .lapsed => true
  | .entering _ => false
  | .asleep _ => false
  | .waking _ _ => false
  | .leaving _ _ => false
  | .retiring => false

/-- The kinds of the unsent requests of a slot. -/
def Steer.unsent (t : Steer) (i : Slot) : List SteerKind :=
  (t.queue.filter fun r => decide (r.slot = i)).map (·.kind)

/-- The request in flight, where it is a station's. -/
def Steer.sentRequest (t : Steer) : Option SteerRequest :=
  match t.inFlight with
  | some f => match f.body with
    | .station r => some r
    | .clearAll => none
  | none => none

/-- The kind of the request in flight for a slot. -/
def Steer.sent (t : Steer) (i : Slot) : Option SteerKind :=
  (t.sentRequest.filter fun r => decide (r.slot = i)).map (·.kind)

/-- Table 2-1, the column of the diversion: the requests a record in this state has unsent and in
flight. -/
def requestsFit (state : Option StationState) (unsent : List SteerKind) (sent : Option SteerKind) : Prop :=
  match state with
  | some (.entering _) => (unsent = [.divert] ∧ sent = none) ∨ (unsent = [] ∧ sent = some .divert)
  | some (.leaving reason cause) =>
    (unsent = [.restore] ∧ sent = none) ∨ (unsent = [] ∧ sent = some .restore) ∨
      (unsent = [.restore] ∧ sent = some .divert ∧ reason = .confirmed ∧ cause = none)
  | some .retiring => (unsent = [.restore] ∧ sent = none) ∨ (unsent = [] ∧ sent = some .restore)
  | some .awake => unsent = [] ∧ sent = none
  | some (.asleep _) => unsent = [] ∧ sent = none
  | some (.waking _ _) => unsent = [] ∧ sent = none
  | some .lapsed => unsent = [] ∧ sent = none
  | none => unsent = [] ∧ sent = none

/-- R22, R148: a request carries the address, segment and port of the record that placed it. -/
def State.RequestIsOf (s : State) (r : SteerRequest) : Prop :=
  ∃ st, s.station r.slot = some st ∧ st.address = r.address ∧ st.segment = r.segment ∧ st.port = r.port

/-- The steering link and the records agree: the mode's shape, records settled outside RUNNING, the
requests of every record those of its state, and each request that of its record. -/
def State.SteeringMatches (s : State) : Prop :=
  s.steer.ShapeOk ∧ (s.steer.mode ≠ .running → ∀ i st, s.station i = some st → st.state.settled = true) ∧
    (∀ i, requestsFit ((s.station i).map (·.state)) (s.steer.unsent i) (s.steer.sent i)) ∧
    (∀ r ∈ s.steer.queue, s.RequestIsOf r) ∧ ∀ r, s.steer.sentRequest = some r → s.RequestIsOf r

/-! ### Notices -/

/-- R188: at most 32 notices, no two with one key, each standing for at least one post. -/
def Nq.WellFormed (q : Nq) : Prop :=
  q.queue.length ≤ Config.noticeCapacity ∧ (q.queue.map Notice.key).Nodup ∧ ∀ n ∈ q.queue, 1 ≤ n.repeatCount.toNat

/-! ### Words the statements are written in -/

/-- No transaction is in progress on the SPI port, and no soft reset is issued and not yet taken: a transaction
that begins now finds the part as it is (R200, R203). -/
def State.PortIdle (s : State) : Prop := s.mport.spi = none ∧ PortEvent.softReset ∉ s.mport.issued

/-- The row that clears a sticky flag. -/
def StickyFlag.clearRow : StickyFlag → Instr
  | .cmdOverrun => .cmdOverrunClear
  | .noticeOverrun => .noticeOverrunClear
  | .configRefused => .configRefusedClear
  | .nameWriteRefused => .nameWriteRefusedClear

/-- The command begins a transaction: a write, a take, the write of one field, or the row of an event that no
write has issued, which is then a write of its own (assumption log 3). -/
def State.BeginsTransaction (s : State) (c : Instr) : Prop :=
  (∃ addr data, c = .registerWrite (.start addr) data ∨ c = .registerWrite (.whole addr) data) ∨
  (∃ first, c = .take (.start first) ∨ c = .take (.whole first)) ∨ (∃ v, c = .intEnableWrite v) ∨
  (∃ f b, c = .configurationWrite f b) ∨ (∃ first bytes, c = .recognitionValueWrite first bytes) ∨
  (∃ f b, c = .noticeParameterWrite f b) ∨ ((c = .runSet ∨ c = .runCleared) ∧ s.mport.nextRun = none) ∨
  (c = .go ∧ PortEvent.go ∉ s.mport.issued) ∨ ∃ f : StickyFlag, c = f.clearRow ∧ PortEvent.clear f ∉ s.mport.issued

/-- The notice is the head of a queue that holds it between these: it is of the most urgent class present, and
the earliest of that class (R192). -/
def Nq.HeadIs (q : Nq) (before : List Notice) (n : Notice) (after : List Notice) : Prop :=
  q.queue = before ++ n :: after ∧ (∀ m ∈ q.queue, m.noticeClass.rank ≤ n.noticeClass.rank) ∧
    ∀ m ∈ before, m.noticeClass ≠ n.noticeClass

/-- `t` with the two pins of `s`: a frame says that `t`, with the fields it names put back, is `s`. The
pins follow their conditions after every command (R197, R76). -/
def State.withPinsOf (t s : State) : State := { t with nint := s.nint, intakeReady := s.intakeReady }

/-- CMDE holds a latched command of this code, and none of its three steps is made yet (R169). -/
def State.Latched (s : State) (code : Byte) (c : Memory) : Prop :=
  s.cmde.engine = .busy c .latched ∧ commandCode c = code

/-- The handle of a command resolves to the station of a slot (R12). -/
def State.Resolves (s : State) (c : Memory) (i : Slot) (st : Station) : Prop :=
  slotByte c = i.val ∧ s.generation i = generationByte c ∧ s.station i = some st

/-- CMDE of `t` is that of `s` with the command completed: IDLE, with this result in the result area
(R169, R170). -/
def State.Completes (s t : State) (c : Memory) (code : ResultCode) (data : List Byte) : Prop :=
  t.cmde = { s.cmde with engine := .idle, resultArea := Memory.ofBytes (resultRecord c { code := code, data := data }) }

/-- The command is completed with this code and no data, and nothing outside CMDE changes (R171). -/
def State.Refuses (s t : State) (c : Memory) (code : ResultCode) : Prop :=
  s.Completes t c code [] ∧ ({ t with cmde := s.cmde } : State).withPinsOf s = s

/-- The rows that execute a latched command: the seventeen commands and the unknown codes. -/
def commandRows : List (CommandStage → Instr) :=
  [.stationCreate, .stationSetTemplate, .stationClearTemplate, .stationAddIdentifier, .stationRemoveIdentifier,
   .stationAttachRule, .stationDetachRule, .stationRead, .stationSleep, .stationWake, .stationRetire,
   .stationClearCounters, .stationFind, .ruleDefine, .ruleDelete, .ruleRead, .steerRestart, .unknownCommandCode]

/-- The rows whose command names a station by its handle, with the command's code (R12, Table 10-3). -/
def handleRows : List (Byte × (CommandStage → Instr)) :=
  [(0x02#8, .stationSetTemplate), (0x03#8, .stationClearTemplate), (0x04#8, .stationAddIdentifier),
   (0x05#8, .stationRemoveIdentifier), (0x06#8, .stationAttachRule), (0x07#8, .stationDetachRule),
   (0x08#8, .stationRead), (0x09#8, .stationSleep), (0x0A#8, .stationWake), (0x0B#8, .stationRetire),
   (0x0C#8, .stationClearCounters)]

/-- The station of one slot is as given, and every other slot and every generation is as in `s`. -/
def State.OnlyStation (s t : State) (i : Slot) (st : Option Station) : Prop :=
  (∀ j, t.station j = if j = i then st else s.station j) ∧ ∀ j, t.generation j = s.generation j

/-- The emission queue of `s` with an entry at its tail, when there is room (R133). -/
def Emit.joined (e : Emit) (x : Entry) : Emit :=
  if e.size < Config.emissionCapacity then { e with waiting := e.waiting ++ [x] } else e

/-- What begins a waking (R37, R112 to R114): the record, the waking context, the first attempt and the
notice. -/
def State.BeginsWaking (s t : State) (i : Slot) (st : Station) (cause : WakeCause) (held : Option (Fin 16)) : Prop :=
  s.OnlyStation t i (some { st with
    state := .waking cause held
    wakeAttempts := if s.emit.size < Config.emissionCapacity then 1 else 0
    wakesBegun := saturate16 st.wakesBegun }) ∧
  t.wake = tset s.wake i (some { address := st.address, remaining := s.mport.settings.wakeInterval.toNat }) ∧
  t.emit = s.emit.joined { kind := .wake i st.address, port := st.port, segment := st.segment }

/-- The WAKE_BEGUN post of a record (R37). -/
def State.wakeBegunPost (s : State) (i : Slot) (cause : WakeCause) : Post :=
  { kind := .wakeBegun, subject := some (i, s.generation i), detail := .cause cause }

/-- A request of a record at the tail of the steering queue, in RUNNING (R148). -/
def Steer.withRequest (t : Steer) (kind : SteerKind) (i : Slot) (st : Station) : Steer :=
  if t.mode = .running then
    { t with queue := t.queue ++ [{ kind := kind, slot := i, address := st.address, segment := st.segment, port := st.port }] }
  else t

/-- ICLS makes this test next: on the frame of intake slot `j`, which is the oldest not yet classified, with
the slot it was a sighting of (R77, R79). -/
def State.Classifying (s : State) (j : Fin 4) (f : Frame) (next : NextTest) (sighted : Option Slot) : Prop :=
  (∃ rest, s.icls.arrivals = j :: rest) ∧ s.icls.slots[j.val] = .unclassified f ∧
    s.icls.current.getD { next := .sighting, sighted := none } = { next := next, sighted := sighted }

/-- ICLS of `t` is that of `s` with the frame's classification gone on to a next test. -/
def State.GoesOn (s t : State) (sighted : Option Slot) (next : NextTest) : Prop :=
  t.icls = { s.icls with current := some { next := next, sighted := sighted } }

/-- ICLS of `t` is that of `s` with the classification of the frame in slot `j` ended, and the slot as
given (R77). -/
def State.Ends (s t : State) (j : Fin 4) (x : IntakeSlot) : Prop :=
  t.icls = { slots := tset s.icls.slots j x, arrivals := s.icls.arrivals.tail, current := none }

/-- A frame in announcement form (R81). -/
def State.AnnouncementForm (s : State) (f : Frame) : Prop :=
  f.reason = .direct ∧ frameDestination f.bytes = s.mport.settings.partAddress ∧
    s.mport.settings.announceType ≠ 0#16 ∧ frameType f.bytes = s.mport.settings.announceType

/-- A frame in query form (R89). -/
def State.QueryForm (s : State) (f : Frame) : Prop :=
  s.mport.settings.queryType ≠ 0#16 ∧ frameType f.bytes = s.mport.settings.queryType ∧ 30 ≤ f.bytes.length

/-- The first rule of a list that the frame's delivery admits and that matches (R64). -/
def State.FirstMatch (s : State) (list : List RuleNumber) (f : Frame) (n : RuleNumber) : Prop :=
  ∃ before after, list = before ++ n :: after ∧ (∀ m ∈ before, ruleMatches s.rstore f m = false) ∧
    ruleMatches s.rstore f n = true

/-- The first event presented for a slot is this one, and it stands between these events (R77). -/
def State.PresentsFor (s : State) (i : Slot) (a : Address) (kind : PresentedKind) (before after : List Presented) : Prop :=
  s.presented = before ++ { slot := i, address := a, kind := kind } :: after ∧ ∀ q ∈ before, q.slot ≠ i

/-- The first event presented for a slot is this one, and the record ICLS matched is there (R80). -/
def State.Presents (s : State) (i : Slot) (st : Station) (kind : PresentedKind) (before after : List Presented) : Prop :=
  s.PresentsFor i st.address kind before after ∧ s.station i = some st

/-- A sequence is new against the last one: there is none, or it is 1 to 32767 ahead (R86). -/
def NewSequence (last : Option Half) (q : Half) : Prop :=
  ∀ l, last = some l → 1 ≤ (q - l).toNat ∧ (q - l).toNat ≤ 32767

/-- The SLEEP_ACK job STAB hands RESP for a station (R97). -/
def ackJobFor (i : Slot) (st : Station) (code : AckCode) (sequence granted : Half) : AckJob :=
  { slot := i, address := st.address, port := st.port, segment := st.segment, code := code, sequence := sequence
    granted := granted }

/-- The command makes STAB take an awake confirmation at the record of slot `i`: a sighting, a new AWAKE
announcement, or a new SLEEP announcement at a WAKING or exhausted record (R25, R33, R87). `st'` is the
station with what the announcement sets, and `jobs` the acknowledgement it decides. -/
def State.ConfirmationEvent (s : State) (c : Instr) (i : Slot) (st st' : Station) (jobs : List AckJob)
    (before after : List Presented) : Prop :=
  (c = .sighting i ∧ s.Presents i st .sighting before after ∧ st' = st ∧ jobs = []) ∨
  (∃ q lease, c = .announcement i ∧ s.Presents i st (.announcement .awake q lease) before after ∧
    NewSequence st.lastSequence q ∧ st' = { st with lastSequence := some q } ∧ jobs = []) ∨
  ∃ q lease, c = .announcement i ∧ s.Presents i st (.announcement .sleep q lease) before after ∧
    NewSequence st.lastSequence q ∧
    ((∃ cause held, st.state = .waking cause held) ∨ ∃ cause, st.state = .leaving .exhausted cause) ∧
    st' = { st with lastSequence := some q, lastAck := some (.inTransition, 0#16) } ∧
    jobs = [ackJobFor i st .inTransition q 0#16]

/-- RESP of `t` is that of `s` with these SLEEP_ACK jobs handed on (R97). -/
def State.HandsAcks (s t : State) (jobs : List AckJob) : Prop :=
  t.resp = { s.resp with ackJobs := s.resp.ackJobs ++ jobs }

/-- A message of the switch is taken as the outcome of the request in flight (R151, R208). -/
def State.AnswersRequest (s : State) (f : InFlight) (sequence : Byte) : Prop :=
  s.steer.footing = true ∧ s.steer.mode ≠ .stopped ∧ s.steer.inFlight = some f ∧ f.sequence.setWidth 8 = sequence

end Sys2Proof.Machine
end

