-- ==== Sys2Proof/Certificates/Slice0/Obligations.lean ====
section
/-! DEFINITION. The statements about the model, in the order of OBLIGATIONS.json. -/

open Sys2Proof Sys2Proof.Machine

/-! ### The step, the pins and the resets -/

/-- 00, 2: the command at the front of the queue is the next event, and the rest of the queue waits. With
an empty queue the block idles, for as long as a message being sent on LTXD takes to end (the model's choices,
assumption logs 1 and 19). -/
def Obligations.StepTakesTheFrontCommand : Prop :=
  (∀ (s : State) (c : Instr) (rest : List Instr), s.pending = c :: rest → step s = exec c { s with pending := rest }) ∧
    ∀ s : State, s.pending = [] → step s = .next { s with out := { s.out with
      sending := none, steered := s.out.steered ++ (s.out.sending.map fun m => (m, MessageEnd.whole)).toList } }

/-- R197, R76: every command leaves NINT and IRDY as their conditions are in the state after it. That every command
answers a next state is read from the spec as a whole (DEDUCED, assumption log 21); that it leaves the rest of the
queue of commands is the model's choice (assumption logs 1 and 17). -/
def Obligations.EveryCommandDrivesThePins : Prop :=
  ∀ (c : Instr) (s : State), ∃ t, exec c s = .next t ∧ t.pending = s.pending ∧
    (t.nint = true ↔ t.mport.intEnable = true ∧
      (t.mport.settings.noticeTrigger.toNat ≤
          (t.nq.queue.filter fun n => !t.mport.settings.masks n.noticeClass).length ∨
        (∃ n ∈ t.nq.queue, t.mport.settings.masks n.noticeClass = false ∧
          t.mport.settings.noticeHoldoff.toNat ≤ n.age.toNat) ∨
        (∃ n ∈ t.nq.queue, n.noticeClass = .urgent ∧ t.mport.settings.masks .urgent = false) ∨
        t.nq.overrun = true ∨ t.cmde.overrun = true)) ∧
    (t.intakeReady = true ↔ t.steer.mode = .running ∧ ∃ j : Fin 4, t.icls.slots[j.val] = .free)

/-- What hard reset leaves, block by block (R1, R47, R59, R78, R96, R109, R111, R122, R140, Table 9-2, R208, R166, R199,
R202, Table 12-3). Everything that every command keeps holds there. That no event issued or handed on is waiting is
assumption log 13 (DEDUCED), and the deferred start is a bit of the model (DEDUCED, log 25). That the
record of outputs and the queue of commands are empty is the model's choice (logs 20, 17 and 1): the command HARD_RESET
keeps both. -/
def Obligations.ResetContents : Prop :=
  ((∀ i : Slot, State.reset.station i = none ∧ State.reset.generation i = 0#8) ∧ State.reset.idmap = [] ∧
    (∀ n : RuleNumber, State.reset.rstore[n.val] = { refCount := 0, body := none }) ∧
    (∀ j : Fin 4, State.reset.icls.slots[j.val] = .free) ∧
    State.reset.icls.arrivals = [] ∧ State.reset.icls.current = none ∧ State.reset.presented = [] ∧
    (∀ b : Fin 8, State.reset.resp.buffers[b.val] = none) ∧ State.reset.resp.answerJobs = [] ∧
    State.reset.resp.ackJobs = [] ∧ (∀ i : Slot, State.reset.wake[i.val] = none) ∧
    (∀ b : Fin 16, State.reset.hold[b.val] = .free) ∧ State.reset.emit = { sending := none, waiting := [] } ∧
    State.reset.steer.mode = .stopped ∧ State.reset.steer.link = .idle ∧ State.reset.steer.queue = [] ∧
    State.reset.steer.inFlight = none ∧ State.reset.steer.ackTimer = none ∧ State.reset.steer.sequence = 0#4 ∧
    State.reset.steer.footing = false ∧ State.reset.steer.deferredStart = false ∧ State.reset.mport.issued = [] ∧
    State.reset.cmde.engine = .idle ∧ (∀ k, Memory.read State.reset.cmde.resultArea k = 0#8) ∧
    State.reset.nq = { queue := [], stamp := 0#16, overrun := false } ∧ State.reset.mport.run = false ∧
    State.reset.mport.intEnable = false ∧ (∀ f, State.reset.sticky f = false) ∧
    (∀ k, Memory.read State.reset.mport.commandArea k = 0#8) ∧
    State.reset.mport.settings =
      { partAddress := 0#48, queryType := 0#16, announceType := 0#16, wakeInterval := 10#8, wakeAttemptLimit := 5#8,
        steerAckTimeout := 20#8, steerRetryLimit := 3#8, noticeTrigger := 1#8, noticeHoldoff := 0#8,
        noticeClassMask := 0#3 } ∧
    State.reset.PortIdle ∧ State.reset.nint = false ∧ State.reset.intakeReady = false ∧
    State.reset.out = { capture := [], sending := none, emitted := [], steered := [] } ∧ State.reset.pending = []) ∧
  (State.reset.nq.WellFormed ∧ AnswersMatch State.reset.emit State.reset.resp.buffers ∧ State.reset.HoldMatches ∧
    SlotsMatch State.reset.icls State.reset.presented State.reset.emit ∧ State.reset.ContextsMatch ∧
    State.reset.MapMatches ∧ State.reset.CountsMatch ∧ State.reset.AddressesUnique ∧ State.reset.StationsWellFormed ∧
    State.reset.RulesValid ∧ State.reset.ChecksPassed ∧ State.reset.SteeringMatches ∧ State.reset.AreasFit ∧ State.reset.PinsDriven)

/-- R203, R1, R140, R144, R164, R200, R202: HARD_RESET leaves the reset contents. SOFT_RESET makes every record VACANT
with its generation raised by 1, returns every block to its reset contents, and keeps the sequence counter, the
configuration and INT_ENABLE. With either a transfer on the emission port ends with the abort mark, a message being
sent on LTXD is cut off, and a transaction in progress is ended. A soft reset that a write has issued is taken before
the next transaction, and so is the write event of a write still in progress. Events issued and not yet taken are
dropped by a reset, and the queue of commands and the record of outputs stay (assumption logs 13, 17 and 20). A row
of an event that no write has issued is a write of its own (the model's choice, assumption log 3). -/
def Obligations.ResetsResult : Prop :=
  ((∀ s : State, ∃ t, exec .hardReset s = .next t ∧
    { t with out := State.reset.out, pending := State.reset.pending } = State.reset ∧ t.pending = s.pending ∧
    t.out.capture = s.out.capture ∧ t.out.sending = none ∧
    t.out.steered = s.out.steered ++ (s.out.sending.map fun m => (m, MessageEnd.cutOff)).toList ∧
    t.out.emitted = s.out.emitted ++ (s.emit.sending.map fun x => (x.2, TransferEnd.aborted)).toList) ∧
  (∀ s : State, s.mport.settings.InRange → (s.mport.spi = none ∨ PortEvent.softReset ∈ s.mport.issued) →
    ∃ t, exec .softReset s = .next t ∧
    (∀ i, t.station i = none ∧ t.generation i = s.generation i + 1#8) ∧
    t.steer = { State.reset.steer with sequence := s.steer.sequence } ∧
    t.mport = { State.reset.mport with intEnable := s.mport.intEnable, settings := s.mport.settings } ∧
    { t with stab := State.reset.stab, steer := State.reset.steer, mport := State.reset.mport
             out := State.reset.out, pending := State.reset.pending } = State.reset ∧
    t.pending = s.pending ∧ t.out.capture = s.out.capture ∧ t.out.sending = none ∧
    t.out.steered = s.out.steered ++ (s.out.sending.map fun m => (m, MessageEnd.cutOff)).toList ∧
    t.out.emitted = s.out.emitted ++ (s.emit.sending.map fun x => (x.2, TransferEnd.aborted)).toList)) ∧
  ((∀ (c : Instr) (s a : State), s.mport.spi = none → PortEvent.softReset ∈ s.mport.issued → s.BeginsTransaction c →
    exec .softReset s = .next a → exec c s = exec c a) ∧
  (∀ (c : Instr) (s a : State) (addr : Half) (data : List Byte), s.mport.spi = some (.write addr data) →
    s.BeginsTransaction c → a.BeginsTransaction c → exec (.registerWrite .finish []) s = .next a →
    exec c s = exec c a) ∧
  ∀ (c : Instr) (s a : State), s.mport.spi = some .read → s.BeginsTransaction c → exec (.take .finish) s = .next a →
    exec c s = exec c a)

/-! ### The register window -/

/-- R200, R168, R193, R202, Tables 12-1 and 12-2: a write that starts in the command area is read back byte for byte
within the area, and changes nothing else; a write that starts beyond it is ignored. A write in parts does what the
whole write does, and a finish with no write in progress does nothing (the model's choice, assumption log 30). A read
returns the bytes of the block of its start address: the identification, CONTROL, STATUS and the configuration, the
command area, the result area, the record of the notice at the head; and 0x00 beyond the block's end, in registers
not listed and in no block. It finds a soft reset issued before it taken. MISO is high-impedance with NCS high, 0x00
throughout a transaction that is ignored and until its meaning is known (assumption log 29), and after the turnaround
byte of a read carries its data, in the model after a hard reset within the read too (its choice, assumption log 29). -/
def Obligations.WindowWritesAndReads : Prop :=
  ((∀ (s : State) (addr : Half) (data : List Byte), s.PortIdle → 0x100 ≤ addr.toNat % 1024 → addr.toNat % 1024 < 0x200 →
    Memory.wf s.mport.commandArea = true → ∃ t, exec (.registerWrite (.whole addr) data) s = .next t ∧
      (∀ k, k < 256 → Memory.read t.mport.commandArea k =
        if addr.toNat % 1024 ≤ 0x100 + k ∧ 0x100 + k < addr.toNat % 1024 + data.length
        then data.getD (0x100 + k - addr.toNat % 1024) 0#8 else Memory.read s.mport.commandArea k) ∧
      ({ t with mport := { t.mport with commandArea := s.mport.commandArea } } : State).withPinsOf s = s) ∧
  (∀ (s : State) (addr : Half) (data : List Byte), s.PortIdle → 0x200 ≤ addr.toNat % 1024 →
    ∃ t, exec (.registerWrite (.whole addr) data) s = .next t ∧ t.withPinsOf s = s) ∧
  (∀ (s : State) (addr : Half) (data more : List Byte), s.PortIdle →
    ∃ u, exec (.registerWrite (.start addr) data) s = .next u ∧ u.mport = { s.mport with spi := some (.write addr data) } ∧
      ({ u with mport := s.mport } : State).withPinsOf s = s ∧
      exec (.registerWrite .finish more) u = exec (.registerWrite (.whole addr) (data ++ more)) s) ∧
  ∀ (s : State) (more : List Byte), (∀ addr data, s.mport.spi ≠ some (.write addr data)) →
    ∃ t, exec (.registerWrite .finish more) s = .next t ∧ t.withPinsOf s = s) ∧
  ((∀ (s : State) (addr : Half) (n : Nat), (s.readWindow addr n).length = n) ∧
  (∀ (s : State) (addr : Half) (n k a : Nat) (b : Byte), s.PortIdle → k < n → a = addr.toNat % 1024 →
    (s.readWindow addr n)[k]? = some b →
    (a < 0x100 →
      (a + k = 0x000 → b = 0x20#8) ∧ (a + k = 0x001 → b = 0x64#8) ∧ (a + k = 0x002 ∨ a + k = 0x003 → b = 0x01#8) ∧
      (a + k = 0x004 → b = (if s.mport.run = true then 0x01#8 else 0#8) ||| (if s.mport.intEnable = true then 0x04#8 else 0#8)) ∧
      (a + k = 0x008 → b = (if s.cmde.engine = .idle then 0#8 else 0x01#8) ||| (match s.steer.mode with
          | .stopped => 0x00#8
          | .starting => 0x02#8
          | .running => 0x04#8
          | .stopping => 0x06#8) ||| (match s.steer.link with
          | .idle => 0x00#8
          | .up => 0x08#8
          | .down => 0x10#8)) ∧
      (a + k = 0x009 → b = (if s.cmde.overrun = true then 0x01#8 else 0#8) ||| (if s.nq.overrun = true then 0x02#8 else 0#8) |||
        (if s.mport.configRefused = true then 0x04#8 else 0#8) ||| (if s.mport.nameWriteRefused = true then 0x08#8 else 0#8)) ∧
      (∀ j, j < 6 → a + k = 0x010 + j → b = BitVec.ofNat 8 (s.mport.settings.partAddress.toNat / 256 ^ (5 - j))) ∧
      (∀ j, j < 2 → a + k = 0x016 + j → b = BitVec.ofNat 8 (s.mport.settings.queryType.toNat / 256 ^ (1 - j))) ∧
      (∀ j, j < 2 → a + k = 0x018 + j → b = BitVec.ofNat 8 (s.mport.settings.announceType.toNat / 256 ^ (1 - j))) ∧
      (a + k = 0x01A → b = s.mport.settings.wakeInterval) ∧ (a + k = 0x01B → b = s.mport.settings.wakeAttemptLimit) ∧
      (a + k = 0x01C → b = s.mport.settings.steerAckTimeout) ∧ (a + k = 0x01D → b = s.mport.settings.steerRetryLimit) ∧
      (a + k = 0x01E → b = s.mport.settings.noticeTrigger) ∧ (a + k = 0x01F → b = s.mport.settings.noticeHoldoff) ∧
      (a + k = 0x020 → b = s.mport.settings.noticeClassMask.setWidth 8) ∧
      (0x005 ≤ a + k ∧ a + k < 0x008 ∨ 0x00A ≤ a + k ∧ a + k < 0x010 ∨ 0x021 ≤ a + k → b = 0x00#8)) ∧
    (0x100 ≤ a → a < 0x200 → b = if a + k < 0x200 then Memory.read s.mport.commandArea (a + k - 0x100) else 0x00#8) ∧
    (0x200 ≤ a → a < 0x300 → b = if a + k < 0x300 then Memory.read s.cmde.resultArea (a + k - 0x200) else 0x00#8) ∧
    (0x300 ≤ a → a < 0x320 → s.nq.queue = [] → b = 0x00#8) ∧
    (∀ before m after, s.nq.HeadIs before m after →
      (0x300 ≤ a → a < 0x310 → b = if a + k < 0x310 then byteAt m.record (a + k - 0x300) else 0x00#8) ∧
      (0x310 ≤ a → a < 0x320 → b = if a + k < 0x320 then byteAt m.record (a + k - 0x310) else 0x00#8)) ∧
    (0x320 ≤ a → b = 0x00#8)) ∧
  (∀ (s a : State) (addr : Half) (n : Nat), s.mport.spi = none → PortEvent.softReset ∈ s.mport.issued →
    exec .softReset s = .next a → s.readWindow addr n = a.readWindow addr n) ∧
  ∀ (s : State) (mosi : List Byte) (k : Nat), s.miso true mosi k = .highImpedance ∧
    (k < 3 ∨ mosi.length < 3 ∨ byteAt mosi 0 ≠ 0x01#8 ∧ byteAt mosi 0 ≠ 0x02#8 → s.miso false mosi k = .driven 0x00#8) ∧
    ∀ high low rest, mosi = 0x02#8 :: high :: low :: rest →
      s.miso false mosi 3 = .driven 0x00#8 ∧
      (4 ≤ k → s.miso false mosi k = .driven ((s.readWindow (high ++ low) (k - 3)).getD (k - 4) 0#8)))

/-- R201, R202, R203, R204: a write of CONTROL stores RUN and INT_ENABLE and issues the RUN change, the GO or
the soft reset; a write of STATUS byte 1 issues the clears; a write of a read-only register does
nothing. A transaction that writes CONTROL, STATUS and the registers after them does each of these, and checks
every configuration field on its own; with SOFT_RESET among them the configuration taken is kept. What lies in the
write event and what it issues for later, and in which order, is the model's (assumption logs 3 and 4). -/
def Obligations.WriteToControlAndStatus : Prop :=
  (∀ (s : State) (addr : Half) (b : Byte), s.PortIdle → addr.toNat % 1024 = 0x004 →
    ∃ t, exec (.registerWrite (.whole addr) [b]) s = .next t ∧ t.mport.run = b.getLsbD 0 ∧ t.mport.intEnable = b.getLsbD 2 ∧
      t.mport.issued = s.mport.issued ++ (if b.getLsbD 7 = true then [.softReset]
        else (if b.getLsbD 0 = true ∧ s.mport.run = false then [.runSet]
              else if b.getLsbD 0 = false ∧ s.mport.run = true then [.runCleared] else []) ++
             (if b.getLsbD 1 = true then [.go] else [])) ∧
      ({ t with mport := { t.mport with run := s.mport.run, intEnable := s.mport.intEnable
                                        issued := s.mport.issued } } : State).withPinsOf s = s) ∧
  (∀ (s : State) (addr : Half) (b : Byte), s.PortIdle → addr.toNat % 1024 = 0x009 →
    ∃ t, exec (.registerWrite (.whole addr) [b]) s = .next t ∧
      t.mport.issued = s.mport.issued ++
        ((if b.getLsbD 0 = true then [.clear .cmdOverrun] else []) ++
         (if b.getLsbD 1 = true then [.clear .noticeOverrun] else []) ++
         (if b.getLsbD 2 = true then [.clear .configRefused] else []) ++
         (if b.getLsbD 3 = true then [.clear .nameWriteRefused] else [])) ∧
      ({ t with mport := { t.mport with issued := s.mport.issued } } : State).withPinsOf s = s) ∧
  (∀ (s : State) (addr : Half) (b : Byte), s.PortIdle →
    (addr.toNat % 1024 < 0x004 ∨ 0x005 ≤ addr.toNat % 1024 ∧ addr.toNat % 1024 < 0x009 ∨
      0x00A ≤ addr.toNat % 1024 ∧ addr.toNat % 1024 < 0x010 ∨ 0x021 ≤ addr.toNat % 1024 ∧ addr.toNat % 1024 < 0x100) →
    ∃ t, exec (.registerWrite (.whole addr) [b]) s = .next t ∧ t.withPinsOf s = s) ∧
  ∀ (s : State) (control b5 b6 b7 b8 status : Byte) (rest : List Byte), s.PortIdle →
    ∃ t u, exec (.registerWrite (.whole 0x004#16) (control :: b5 :: b6 :: b7 :: b8 :: status :: rest)) s = .next t ∧
      exec (.registerWrite (.whole 0x00A#16) rest) s = .next u ∧
      t.mport.run = control.getLsbD 0 ∧ t.mport.intEnable = control.getLsbD 2 ∧
      t.mport.issued = s.mport.issued ++
        (((if status.getLsbD 0 = true then [PortEvent.clear .cmdOverrun] else []) ++
          (if status.getLsbD 1 = true then [PortEvent.clear .noticeOverrun] else []) ++
          (if status.getLsbD 2 = true then [PortEvent.clear .configRefused] else []) ++
          (if status.getLsbD 3 = true then [PortEvent.clear .nameWriteRefused] else [])) ++
         (if control.getLsbD 7 = true then [.softReset]
          else (if control.getLsbD 0 = true ∧ s.mport.run = false then [.runSet]
                else if control.getLsbD 0 = false ∧ s.mport.run = true then [.runCleared] else []) ++
               (if control.getLsbD 1 = true then [.go] else []))) ∧
      ({ t with mport := { t.mport with run := u.mport.run, intEnable := u.mport.intEnable
                                        issued := u.mport.issued } } : State).withPinsOf u = u ∧
      (control.getLsbD 7 = true → ∃ v, exec .softReset t = .next v ∧ v.mport.settings = u.mport.settings)

/-- R201, R204, Table 12-2: a transaction that writes one configuration field does what the field's own row
does, and one that writes several does what a transaction of its own for each would do, one after another: each
field is checked, and taken or refused, on its own. -/
def Obligations.FieldWriteIsItsRow : Prop :=
  (∀ (s : State) (b : Byte),
    exec (.registerWrite (.whole 0x01A#16) [b]) s = exec (.configurationWrite .wakeInterval b) s ∧
    exec (.registerWrite (.whole 0x01B#16) [b]) s = exec (.configurationWrite .wakeAttemptLimit b) s ∧
    exec (.registerWrite (.whole 0x01C#16) [b]) s = exec (.configurationWrite .steerAckTimeout b) s ∧
    exec (.registerWrite (.whole 0x01D#16) [b]) s = exec (.configurationWrite .steerRetryLimit b) s ∧
    exec (.registerWrite (.whole 0x01E#16) [b]) s = exec (.noticeParameterWrite .noticeTrigger b) s ∧
    exec (.registerWrite (.whole 0x01F#16) [b]) s = exec (.noticeParameterWrite .noticeHoldoff b) s ∧
    exec (.registerWrite (.whole 0x020#16) [b]) s = exec (.noticeParameterWrite .noticeClassMask b) s) ∧
  (∀ (s : State) (first : Nat) (bytes : List Byte), first + bytes.length ≤ 10 →
    exec (.registerWrite (.whole (BitVec.ofNat 16 (0x010 + first))) bytes) s = exec (.recognitionValueWrite first bytes) s) ∧
  ∀ (s t : State) (a : Nat) (data more : List Byte), 0x00A ≤ a → 0x01A ≤ a + data.length → a + data.length < 0x100 →
    exec (.registerWrite (.whole (BitVec.ofNat 16 a)) data) s = .next t →
    exec (.registerWrite (.whole (BitVec.ofNat 16 (a + data.length))) more) t =
      exec (.registerWrite (.whole (BitVec.ofNat 16 a)) (data ++ more)) s

/-- R204, R165, R198: a timing field takes a value in range; a value out of range is ignored and CONFIG_REFUSED is
set. NoticeTrigger takes 1 to 32 and refuses the rest so; NoticeHoldoff and the low three bits of
NoticeClassMask take every value; INT_ENABLE takes the bit written. -/
def Obligations.ConfigurationWriteResult : Prop :=
  (∀ (s : State) (f : TimingField) (b : Byte), s.PortIdle → ∃ t, exec (.configurationWrite f b) s = .next t ∧
    ((match f with
      | .wakeInterval => 1 ≤ b.toNat
      | .wakeAttemptLimit => 1 ≤ b.toNat ∧ b.toNat ≤ 15
      | .steerAckTimeout => 1 ≤ b.toNat
      | .steerRetryLimit => b.toNat ≤ 7) →
      t.mport = { s.mport with settings := match f with
        | .wakeInterval => { s.mport.settings with wakeInterval := b }
        | .wakeAttemptLimit => { s.mport.settings with wakeAttemptLimit := b }
        | .steerAckTimeout => { s.mport.settings with steerAckTimeout := b }
        | .steerRetryLimit => { s.mport.settings with steerRetryLimit := b } }) ∧
    (¬ (match f with
      | .wakeInterval => 1 ≤ b.toNat
      | .wakeAttemptLimit => 1 ≤ b.toNat ∧ b.toNat ≤ 15
      | .steerAckTimeout => 1 ≤ b.toNat
      | .steerRetryLimit => b.toNat ≤ 7) → t.mport = { s.mport with configRefused := true }) ∧
    ({ t with mport := s.mport } : State).withPinsOf s = s) ∧
  ((∀ (s : State) (f : NoticeField) (b : Byte), s.PortIdle → ∃ t, exec (.noticeParameterWrite f b) s = .next t ∧
    ({ t with mport := s.mport } : State).withPinsOf s = s ∧
    t.mport = match f with
      | .noticeTrigger =>
        if 1 ≤ b.toNat ∧ b.toNat ≤ 32 then { s.mport with settings := { s.mport.settings with noticeTrigger := b } }
        else { s.mport with configRefused := true }
      | .noticeHoldoff => { s.mport with settings := { s.mport.settings with noticeHoldoff := b } }
      | .noticeClassMask => { s.mport with settings := { s.mport.settings with noticeClassMask := b.setWidth 3 } }) ∧
  ∀ (s : State) (v : Bool), s.PortIdle → ∃ t, exec (.intEnableWrite v) s = .next t ∧ t.mport = { s.mport with intEnable := v } ∧
    ({ t with mport := s.mport } : State).withPinsOf s = s)

/-- R205: outside STOPPED a write of a recognition value leaves all three and sets NAME_WRITE_REFUSED; in
STOPPED the types take the value written, and PartAddress is refused with CONFIG_REFUSED when it is a
group address or an enrolled station's. Bytes not written keep their values (R201). -/
def Obligations.RecognitionWriteResult : Prop :=
  ∀ (s : State) (first : Nat) (bytes : List Byte), s.PortIdle → 0 < bytes.length → first + bytes.length ≤ 10 →
    ∃ t, exec (.recognitionValueWrite first bytes) s = .next t ∧
      ({ t with mport := s.mport } : State).withPinsOf s = s ∧
      (s.steer.mode ≠ .stopped → t.mport = { s.mport with nameWriteRefused := true }) ∧
      (s.steer.mode = .stopped →
        let c := s.mport.settings
        let old := beBytes 6 c.partAddress.toNat ++ beBytes 2 c.queryType.toNat ++ beBytes 2 c.announceType.toNat
        let now (k : Nat) : Byte := if first ≤ k ∧ k < first + bytes.length then bytes.getD (k - first) 0#8 else old.getD k 0#8
        let a : Address := BitVec.ofNat 48 (beNat [now 0, now 1, now 2, now 3, now 4, now 5])
        let typed : Settings := { c with queryType := BitVec.ofNat 16 (beNat [now 6, now 7])
                                         announceType := BitVec.ofNat 16 (beNat [now 8, now 9]) }
        (6 ≤ first → t.mport = { s.mport with settings := typed }) ∧
        (first < 6 → (a.getLsbD 40 = true ∨ ∃ i st, s.station i = some st ∧ st.address = a) →
          t.mport = { s.mport with settings := typed, configRefused := true }) ∧
        (first < 6 → a.getLsbD 40 = false → (∀ i st, s.station i = some st → st.address ≠ a) →
          t.mport = { s.mport with settings := { typed with partAddress := a } }))

/-- R168, R195, R202: each clear clears its one sticky flag and leaves the other three. It takes the clear a write
has issued, or, with none issued, is a write of its own (the model's choice, assumption log 3). -/
def Obligations.StickyFlagClears : Prop :=
  ∀ (s : State) (f : StickyFlag), s.PortIdle ∨ PortEvent.clear f ∈ s.mport.issued → ∃ t,
    exec (match f with
      | .cmdOverrun => .cmdOverrunClear
      | .noticeOverrun => .noticeOverrunClear
      | .configRefused => .configRefusedClear
      | .nameWriteRefused => .nameWriteRefusedClear) s = .next t ∧
    (∀ g, t.sticky g = if g = f then false else s.sticky g) ∧ t.mport.issued = s.mport.issued.erase (.clear f) ∧
    ({ t with cmde := { t.cmde with overrun := s.cmde.overrun }
              nq := { t.nq with overrun := s.nq.overrun }
              mport := { t.mport with configRefused := s.mport.configRefused, nameWriteRefused := s.mport.nameWriteRefused
                                      issued := s.mport.issued } } : State).withPinsOf s = s

/-- R192, R194, R200: a take returns the record of the notice that joined earliest among those of the most
urgent class, and removes that notice; a take of an empty queue returns zeros; a read of the take window
that begins at another byte is a peek. The read event is taken at the second address byte: the transaction stays in
progress until NCS rises, and its end changes nothing more (the parts are the model's choice, assumption log 30). -/
def Obligations.TakeReturnsTheHead : Prop :=
  (∀ (s : State) (before after : List Notice) (n : Notice), s.PortIdle → s.nq.HeadIs before n after →
    (∃ t, exec (.take (.whole 0)) s = .next t ∧ t.nq = { s.nq with queue := before ++ after } ∧
      t.out = { s.out with capture := n.record } ∧ ({ t with nq := s.nq, out := s.out } : State).withPinsOf s = s) ∧
    ∀ k, 0 < k → k < 16 → ∃ t, exec (.take (.whole k)) s = .next t ∧ t.out = { s.out with capture := n.record.drop k } ∧
      ({ t with out := s.out } : State).withPinsOf s = s) ∧
  (∀ (s : State) (k : Nat), s.PortIdle → s.nq.queue = [] → k < 16 → ∃ t, exec (.take (.whole k)) s = .next t ∧
    t.out = { s.out with capture := List.replicate (16 - k) 0#8 } ∧ ({ t with out := s.out } : State).withPinsOf s = s) ∧
  (∀ (s : State) (k : Nat), s.PortIdle → ∃ t u, exec (.take (.whole k)) s = .next t ∧ exec (.take (.start k)) s = .next u ∧
    u = { t with mport := { t.mport with spi := some .read } } ∧ exec (.take .finish) u = .next t) ∧
  ∀ s : State, s.mport.spi ≠ some .read → ∃ t, exec (.take .finish) s = .next t ∧ t.withPinsOf s = s

/-- R167: GO in IDLE latches the command area; GO in BUSY sets CMD_OVERRUN and changes nothing else. It is the GO a
write has issued, or, with none issued, a write of its own (the model's choice, assumption log 3). -/
def Obligations.GoResult : Prop :=
  ∀ s : State, s.PortIdle ∨ PortEvent.go ∈ s.mport.issued →
    ∃ t, exec .go s = .next t ∧ t.mport = { s.mport with issued := s.mport.issued.erase .go } ∧
    ({ t with cmde := s.cmde, mport := s.mport } : State).withPinsOf s = s ∧
    (s.cmde.engine = .idle → t.cmde = { s.cmde with engine := .busy s.mport.commandArea .latched }) ∧
    (s.cmde.engine ≠ .idle → t.cmde = { s.cmde with overrun := true })

/-! ### The operating mode -/

/-- R157, R158, R161: RUN set in STOPPED, and a deferred start that finds RUN at 1, begin a start; in every other
mode RUN set stores RUN alone. RUN cleared in STARTING makes the mode STOPPED at once, with the CLEAR_ALL
abandoned and MODE_CHANGED posted; in STOPPING it is stored alone; in STOPPED it also cancels a deferred
start. The change is the one a write has issued, or, with none issued, the row is the write itself (the
model's choices, assumption logs 3 and 25). -/
def Obligations.RunChangeResult : Prop :=
  ((∀ s : State, (s.mport.nextRun = some .runSet ∨ s.mport.nextRun = none ∧ s.mport.run = false ∧ s.PortIdle) →
    ∃ t, exec .runSet s = .next t ∧
      (s.mport.nextRun = some .runSet → t.mport = { s.mport with issued := s.mport.issued.erase .runSet }) ∧
      (s.mport.nextRun = none → t.mport = { s.mport with run := true }) ∧
      (s.steer.mode = .stopped →
        t.steer = { s.steer with
          mode := .starting, link := .up, deferredStart := false, sequence := s.steer.sequence + 1#4
          inFlight := some { body := .clearAll, sequence := s.steer.sequence, retries := 0 }
          ackTimer := some s.mport.settings.steerAckTimeout.toNat } ∧
        t.out = s.out.beginMessage (requestMessage .clearAll s.steer.sequence)) ∧
      (s.steer.mode ≠ .stopped → t.steer = s.steer ∧ t.out = s.out) ∧
      ({ t with mport := s.mport, steer := s.steer, out := s.out } : State).withPinsOf s = s) ∧
  (∀ s : State, s.steer.deferredStart = true → s.steer.mode = .stopped → s.mport.run = true →
    ∃ t, exec .deferredStart s = .next t ∧
      t.steer = { s.steer with
        mode := .starting, link := .up, deferredStart := false, sequence := s.steer.sequence + 1#4
        inFlight := some { body := .clearAll, sequence := s.steer.sequence, retries := 0 }
        ackTimer := some s.mport.settings.steerAckTimeout.toNat } ∧
      t.out = s.out.beginMessage (requestMessage .clearAll s.steer.sequence) ∧
      ({ t with steer := s.steer, out := s.out } : State).withPinsOf s = s) ∧
  ∀ s : State, s.mport.run = false → ∃ t, exec .deferredStart s = .next t ∧
    t.steer = { s.steer with deferredStart := false } ∧ ({ t with steer := s.steer } : State).withPinsOf s = s) ∧
  (∀ s : State, (s.mport.nextRun = some .runCleared ∨ s.mport.nextRun = none ∧ s.mport.run = true ∧ s.PortIdle) →
    s.steer.mode ≠ .running →
    ∃ t, exec .runCleared s = .next t ∧
      (s.mport.nextRun = some .runCleared → t.mport = { s.mport with issued := s.mport.issued.erase .runCleared }) ∧
      (s.mport.nextRun = none → t.mport = { s.mport with run := false }) ∧
      (s.steer.mode = .starting →
        t.steer = { s.steer with mode := .stopped, link := .idle, inFlight := none, ackTimer := none } ∧
        t.nq = s.nq.post { kind := .modeChanged, subject := none, detail := .mode .stopped }) ∧
      (s.steer.mode = .stopped → t.steer = { s.steer with deferredStart := false } ∧ t.nq = s.nq) ∧
      (s.steer.mode = .stopping → t.steer = s.steer ∧ t.nq = s.nq) ∧
      ({ t with mport := s.mport, steer := s.steer, nq := s.nq } : State).withPinsOf s = s)

/-- R160, R44, R138: RUN cleared in RUNNING is one event: the steering queue is emptied, the request in
flight abandoned, every record settled by its state, every WAITING entry removed and its resource freed,
and a CLEAR_ALL sent with the link UP. A vacancy lowers the counts of the rules the record lists: RuleCountsKept says
so. The vacancies are taken from slot 0 up, and the change is the one a write has issued or, with none issued, the
row is the write itself (the model's choices, assumption logs 16 and 3). -/
def Obligations.RunClearedStops : Prop :=
  ∀ s : State, (s.mport.nextRun = some .runCleared ∨ s.mport.nextRun = none ∧ s.mport.run = true ∧ s.PortIdle) →
    s.steer.mode = .running →
    ∃ t, exec .runCleared s = .next t ∧
      t.steer = { s.steer with
        mode := .stopping, link := .up, queue := [], sequence := s.steer.sequence + 1#4
        inFlight := some { body := .clearAll, sequence := s.steer.sequence, retries := 0 }
        ackTimer := some s.mport.settings.steerAckTimeout.toNat } ∧
      t.out = s.out.beginMessage (requestMessage .clearAll s.steer.sequence) ∧
      (∀ i, s.station i = none → t.station i = none ∧ t.generation i = s.generation i) ∧
      (∀ i st, s.station i = some st →
        ((st.state.settled = true → t.station i = some st ∧ t.generation i = s.generation i) ∧
         (st.state = .retiring → t.station i = none ∧ t.generation i = s.generation i + 1#8) ∧
         (((∃ o, st.state = .entering o) ∨ ∃ cause, st.state = .leaving .confirmed cause) →
           t.station i = some { st with state := .awake } ∧ t.generation i = s.generation i) ∧
         (((∃ l, st.state = .asleep l) ∨ (∃ cause held, st.state = .waking cause held) ∨
             ∃ cause, st.state = .leaving .exhausted cause) →
           t.station i = some { st with state := .lapsed } ∧ t.generation i = s.generation i))) ∧
      (∀ i : Slot, t.wake[i.val] =
        if ∃ st ∈ s.station i, st.wakingAddress.isSome = true then none else s.wake[i.val]) ∧
      t.emit = { s.emit with waiting := [] } ∧
      (∀ b : Fin 8, t.resp.buffers[b.val] =
        if ∃ x ∈ s.emit.waiting, x.kind = .answer b then none else s.resp.buffers[b.val]) ∧
      (∀ b : Fin 16, t.hold[b.val] =
        if (∃ x ∈ s.emit.waiting, x.kind = .held b) ∨ ∃ i, s.heldBy i = some b then .free else s.hold[b.val]) ∧
      (∀ j : Fin 4, t.icls.slots[j.val] =
        if ∃ x ∈ s.emit.waiting, x.kind = .pass j then .free else s.icls.slots[j.val]) ∧
      (∀ e, e ∈ t.idmap ↔ e ∈ s.idmap ∧ ¬ ∃ i st, s.station i = some st ∧ st.state = .retiring ∧
        st.segment = e.segment ∧ ∃ l ∈ st.identifiers, l.identifier = e.identifier) ∧
      (∀ n : RuleNumber, t.rstore[n.val].body = s.rstore[n.val].body) ∧
      t.nq = ((List.finRange 64).filter fun i => decide ((s.station i).map (·.state) = some .retiring)).foldl
        (fun q i => q.post { kind := .stationRetired, subject := some (i, s.generation i), detail := .none }) s.nq ∧
      t.resp.answerJobs = s.resp.answerJobs ∧ t.resp.ackJobs = s.resp.ackJobs ∧
      t.icls.arrivals = s.icls.arrivals ∧ t.icls.current = s.icls.current ∧ t.presented = s.presented ∧
      t.cmde = s.cmde ∧ t.mport.settings = s.mport.settings ∧ t.mport.commandArea = s.mport.commandArea ∧
      t.mport.spi = s.mport.spi

/-! ### Commands -/

/-- R169, R171: the three steps of an execution made one after another do what the whole row does; a row whose
command is not latched does nothing (the model's choice, assumption logs 2 and 9). A command that fails
changes nothing but its result and BUSY: no record, table entry, count, steering request, emission entry,
configuration or notice. -/
def Obligations.CommandStages : Prop :=
  ((∀ r ∈ commandRows, ∀ (u : CommandStage) (s : State), s.cmde.engine = .idle →
    ∃ t, exec (r u) s = .next t ∧ t.withPinsOf s = s) ∧
  (∀ r ∈ commandRows, ∀ (u : CommandStage) (s a : State), exec (r u) s = .next a →
    exec (r .completion) a = exec (r .completion) s) ∧
  ∀ r ∈ commandRows, ∀ s : State, ∃ t, exec (r .checks) s = .next t ∧
    ({ t with cmde := { t.cmde with engine := s.cmde.engine } } : State).withPinsOf s = s) ∧
  (∀ r ∈ commandRows, ∀ (s t : State) (c : Memory) (p : Progress), s.cmde.engine = .busy c p → exec (r .completion) s = .next t →
    t.cmde.engine = .idle → 2 ≤ (Memory.read t.cmde.resultArea 2).toNat →
    t.cmde.overrun = s.cmde.overrun ∧ ({ t with cmde := s.cmde } : State).withPinsOf s = s)

/-- R170, R206, R11, Tables 10-2, 12-5 to 12-9: the result record repeats the code and the tag, then the result code by
its number and the number of data bytes, then the data, and the rest of the 256 bytes reads zero. A station record has
221 bytes, a rule record 41 and a notice record 16: every field stands at the offset its table gives, with the codes
and presence bits of the table, and every absent field and unused position reads zero. -/
def Obligations.RecordLayouts : Prop :=
  (∀ (c : Memory) (r : Reply), r.data.length ≤ 252 →
    Memory.read (Memory.ofBytes (resultRecord c r)) 0 = Memory.read c 0 ∧
    Memory.read (Memory.ofBytes (resultRecord c r)) 1 = Memory.read c 1 ∧
    Memory.read (Memory.ofBytes (resultRecord c r)) 2 = (match r.code with
      | .ok => 0#8
      | .pending => 1#8
      | .badCommand => 2#8
      | .badArgument => 3#8
      | .staleHandle => 4#8
      | .notFound => 5#8
      | .tableFull => 6#8
      | .duplicateAddress => 7#8
      | .listFull => 8#8
      | .mapFull => 9#8
      | .duplicateIdentifier => 10#8
      | .duplicateRule => 11#8
      | .ruleUndefined => 12#8
      | .ruleDefined => 13#8
      | .ruleInUse => 14#8
      | .stateConflict => 15#8
      | .noTemplate => 16#8
      | .notRunning => 17#8
      | .linkDown => 18#8
      | .notDown => 19#8) ∧
    (Memory.read (Memory.ofBytes (resultRecord c r)) 3).toNat = r.data.length ∧
    (∀ k, k < r.data.length → Memory.read (Memory.ofBytes (resultRecord c r)) (4 + k) = r.data.getD k 0#8) ∧
    ∀ k, 4 + r.data.length ≤ k → Memory.read (Memory.ofBytes (resultRecord c r)) k = 0#8) ∧
  ((∀ (i : Slot) (g : Generation) (st : Station), st.identifiers.length ≤ 8 → st.rules.length ≤ 8 →
    (st.template.getD []).length ≤ 128 →
    (stationData i g st).length = 221 ∧ fieldAt (stationData i g st) 0 1 = i.val ∧
    byteAt (stationData i g st) 1 = g ∧ byteAt (stationData i g st) 2 = (match st.state with
      | .awake => 1#8
      | .entering _ => 2#8
      | .asleep _ => 3#8
      | .waking _ _ => 4#8
      | .leaving _ _ => 5#8
      | .lapsed => 6#8
      | .retiring => 7#8) ∧
    fieldAt (stationData i g st) 3 6 = st.address.toNat ∧ fieldAt (stationData i g st) 9 1 = st.port.toNat ∧
    fieldAt (stationData i g st) 10 2 = st.segment.toNat ∧ fieldAt (stationData i g st) 12 2 = st.defaultLease.toNat ∧
    fieldAt (stationData i g st) 14 1 = st.identifiers.length ∧
    (∀ k (h : k < st.identifiers.length),
      fieldAt (stationData i g st) (15 + 5 * k) 4 = st.identifiers[k].identifier.toNat ∧
      byteAt (stationData i g st) (19 + 5 * k) = if st.identifiers[k].wakeOnQuery = true then 1#8 else 0#8) ∧
    (∀ k, 15 + 5 * st.identifiers.length ≤ k → k < 55 → byteAt (stationData i g st) k = 0#8) ∧
    fieldAt (stationData i g st) 55 1 = st.rules.length ∧
    (∀ k (h : k < st.rules.length), fieldAt (stationData i g st) (56 + k) 1 = st.rules[k].val) ∧
    (∀ k, 56 + st.rules.length ≤ k → k < 64 → byteAt (stationData i g st) k = 0#8) ∧
    fieldAt (stationData i g st) 64 1 = (st.template.getD []).length ∧
    (∀ k, k < (st.template.getD []).length → byteAt (stationData i g st) (65 + k) = (st.template.getD []).getD k 0#8) ∧
    (∀ k, 65 + (st.template.getD []).length ≤ k → k < 193 → byteAt (stationData i g st) k = 0#8) ∧
    (let presence := byteAt (stationData i g st) 193
     (presence.getLsbD 0 = true ↔ ∃ l, st.state = .asleep (some l)) ∧
     (presence.getLsbD 1 = true ↔ st.lastSequence ≠ none) ∧ (presence.getLsbD 2 = true ↔ st.lastAck ≠ none) ∧
     (presence.getLsbD 3 = true ↔ ∃ q lease, st.state = .entering (.announced q lease)) ∧
     (presence.getLsbD 4 = true ↔ ∃ lease, st.state = .entering (.commanded lease)) ∧
     (presence.getLsbD 5 = true ↔ (∃ cause held, st.state = .waking cause held) ∨
       ∃ reason cause, st.state = .leaving reason (some cause)) ∧
     (presence.getLsbD 6 = true ↔ ∃ cause b, st.state = .waking cause (some b)) ∧
     (presence.getLsbD 7 = true ↔ ∃ reason cause, st.state = .leaving reason cause)) ∧
    fieldAt (stationData i g st) 194 2 = (match st.state with
      | .asleep (some l) => l.remaining.toNat
      | _ => 0) ∧
    fieldAt (stationData i g st) 196 2 = (match st.lastSequence with
      | some q => q.toNat
      | none => 0) ∧
    (st.lastAck = none → fieldAt (stationData i g st) 198 3 = 0) ∧
    (∀ code granted, st.lastAck = some (code, granted) →
      byteAt (stationData i g st) 198 = (match code with
        | .accepted => 0#8
        | .noTemplate => 1#8
        | .notRunning => 2#8
        | .linkDown => 3#8
        | .steerRefused => 4#8
        | .inTransition => 5#8
        | .retiring => 6#8) ∧
      fieldAt (stationData i g st) 199 2 = granted.toNat) ∧
    fieldAt (stationData i g st) 201 2 = (match st.state with
      | .entering (.announced q _) => q.toNat
      | _ => 0) ∧
    fieldAt (stationData i g st) 203 2 = (match st.state with
      | .entering (.announced _ lease) => lease.toNat
      | _ => 0) ∧
    fieldAt (stationData i g st) 205 2 = (match st.state with
      | .entering (.commanded lease) => lease.toNat
      | _ => 0) ∧
    ((∀ cause held, st.state ≠ .waking cause held) → (∀ reason cause, st.state ≠ .leaving reason (some cause)) →
      fieldAt (stationData i g st) 207 5 = 0) ∧
    (∀ cause, ((∃ held, st.state = .waking cause held) ∨ ∃ reason, st.state = .leaving reason (some cause)) →
      byteAt (stationData i g st) 207 = (match cause with
        | .lease => 1#8
        | .rule _ => 2#8
        | .query _ => 3#8
        | .command => 4#8) ∧
      fieldAt (stationData i g st) 208 4 = (match cause with
        | .lease => 0
        | .rule n => n.val
        | .query id => id.toNat
        | .command => 0)) ∧
    (st.wakeAttempts < 256 → fieldAt (stationData i g st) 212 1 = st.wakeAttempts) ∧
    fieldAt (stationData i g st) 213 1 = (match st.state with
      | .waking _ (some b) => b.val
      | _ => 0) ∧
    byteAt (stationData i g st) 214 = (match st.state with
      | .leaving .confirmed _ => 1#8
      | .leaving .exhausted _ => 2#8
      | _ => 0#8) ∧
    fieldAt (stationData i g st) 215 2 = st.answersSent.toNat ∧ fieldAt (stationData i g st) 217 2 = st.wakesBegun.toNat ∧
    fieldAt (stationData i g st) 219 2 = st.framesShed.toNat) ∧
  ∀ (n : RuleNumber) (r : Rule), (∀ b, r.body = some b → b.spans.length ≤ 8) → r.refCount ≤ 64 →
    (ruleData n r).length = 41 ∧ fieldAt (ruleData n r) 0 1 = n.val ∧ fieldAt (ruleData n r) 2 1 = r.refCount ∧
    (r.body = none → ∀ k, 3 ≤ k ∨ k = 1 → byteAt (ruleData n r) k = 0#8) ∧
    ∀ b, r.body = some b → byteAt (ruleData n r) 1 = 1#8 ∧ byteAt (ruleData n r) 3 = (match b.scope with
        | .directed => 1#8
        | .any => 2#8) ∧
      fieldAt (ruleData n r) 4 1 = b.spans.length ∧ fieldAt (ruleData n r) 5 4 = b.digest.toNat ∧
      (∀ k, 9 + 4 * b.spans.length ≤ k → byteAt (ruleData n r) k = 0#8) ∧
      ∀ k (h : k < b.spans.length), b.spans[k].offset < 65536 → b.spans[k].length < 65536 →
        fieldAt (ruleData n r) (9 + 4 * k) 2 = b.spans[k].offset ∧ fieldAt (ruleData n r) (11 + 4 * k) 2 = b.spans[k].length) ∧
  (∀ n : Notice,
    n.record.length = 16 ∧
    byteAt n.record 0 = (match n.kind with
      | .wakeFailed => 1#8
      | .steerLinkDown => 2#8
      | .stationAsleep => 3#8
      | .stationReturned => 4#8
      | .wakeBegun => 5#8
      | .stationRetired => 6#8
      | .steerRefused => 7#8
      | .modeChanged => 8#8
      | .unknownAnnouncer => 9#8
      | .holdUnavailable => 10#8
      | .answerDropped => 11#8) ∧
    byteAt n.record 1 = (match n.kind with
      | .wakeFailed | .steerLinkDown => 1#8
      | .stationAsleep | .stationReturned | .wakeBegun | .stationRetired | .steerRefused | .modeChanged => 2#8
      | .unknownAnnouncer | .holdUnavailable | .answerDropped => 3#8) ∧
    fieldAt n.record 2 1 = (match n.subject with
      | some (i, _) => i.val
      | none => 0xFF) ∧
    byteAt n.record 3 = (match n.subject with
      | some (_, g) => g
      | none => 0#8) ∧
    byteAt n.record 4 = n.repeatCount ∧ byteAt n.record 5 = n.age ∧ fieldAt n.record 6 2 = n.stamp.toNat ∧
    let requestKind (k : RequestKind) : Byte := match k with
      | .divert => 1#8
      | .restore => 2#8
      | .clearAll => 3#8
    match n.detail with
    | .none => fieldAt n.record 8 8 = 0
    | .cause cause => byteAt n.record 8 = (match cause with
          | .lease => 1#8
          | .rule _ => 2#8
          | .query _ => 3#8
          | .command => 4#8) ∧
        fieldAt n.record 9 4 = (match cause with
          | .lease => 0
          | .rule m => m.val
          | .query id => id.toNat
          | .command => 0) ∧
        fieldAt n.record 13 3 = 0
    | .request kind sequence => byteAt n.record 8 = requestKind kind ∧ fieldAt n.record 9 1 = sequence.toNat ∧
        fieldAt n.record 10 6 = 0
    | .lease effective => fieldAt n.record 8 2 = effective.toNat ∧ fieldAt n.record 10 6 = 0
    | .refusal kind reason => byteAt n.record 8 = requestKind kind ∧ byteAt n.record 9 = (match reason with
          | .full => 1#8
          | .unknown => 2#8
          | .malformed => 3#8) ∧
        fieldAt n.record 10 6 = 0
    | .mode m => byteAt n.record 8 = (match m with
          | .stopped => 0#8
          | .starting => 1#8
          | .running => 2#8
          | .stopping => 3#8) ∧
        fieldAt n.record 9 7 = 0
    | .address a => fieldAt n.record 8 6 = a.toNat ∧ fieldAt n.record 14 2 = 0
    | .rule m => fieldAt n.record 8 1 = m.val ∧ fieldAt n.record 9 7 = 0
    | .drop answer cause => byteAt n.record 8 = (match answer with
          | .reply => 1#8
          | .probeReply => 2#8
          | .sleepAck => 3#8) ∧
        byteAt n.record 9 = (match cause with
          | .noBuffer => 1#8
          | .noPlace => 2#8
          | .unconfigured => 3#8) ∧
        fieldAt n.record 10 6 = 0)

/-- R12, R171: a slot above 63 is BAD_ARGUMENT for every command with a handle; once the checks at CMDE
have passed, a handle whose generation is not the record's is STALE_HANDLE and one that names a VACANT
record is NOT_FOUND. -/
def Obligations.HandleResolution : Prop :=
  ∀ x ∈ handleRows, ∀ (s : State) (c : Memory), s.Latched x.1 c →
    (63 < slotByte c → ∃ t, exec (x.2 .completion) s = .next t ∧ s.Refuses t c .badArgument) ∧
    ∀ (i : Slot) (a : State), slotByte c = i.val → exec (x.2 .checks) s = .next a →
      a.cmde.engine = .busy c .checked →
      (s.generation i ≠ generationByte c → ∃ t, exec (x.2 .completion) s = .next t ∧ s.Refuses t c .staleHandle) ∧
      (s.generation i = generationByte c → s.station i = none →
        ∃ t, exec (x.2 .completion) s = .next t ∧ s.Refuses t c .notFound)

/-- R174, R14 to R16: STATION_CREATE refuses in the order of its checks, or enrols in the lowest VACANT
slot a station that is AWAKE with the given fields, empty lists, no template and counters 0. -/
def Obligations.StationCreateResult : Prop :=
  ∀ (s : State) (c : Memory) (a : Address), s.Latched 0x01#8 c → a = addressArgument c →
    ∃ t, exec (.stationCreate .completion) s = .next t ∧
    (a.getLsbD 40 = true ∨ a = 0#48 ∨ 31 < (Memory.read c 8).toNat ∨ 4095 < Memory.field c 9 2 ∨
        a = s.mport.settings.partAddress → s.Refuses t c .badArgument) ∧
    (a.getLsbD 40 = false → a ≠ 0#48 → (Memory.read c 8).toNat ≤ 31 → Memory.field c 9 2 ≤ 4095 →
      a ≠ s.mport.settings.partAddress →
      ((∃ i st, s.station i = some st ∧ st.address = a) → s.Refuses t c .duplicateAddress) ∧
      ((∀ i st, s.station i = some st → st.address ≠ a) → (∀ i, s.station i ≠ none) → s.Refuses t c .tableFull) ∧
      ∀ i, (∀ j st, s.station j = some st → st.address ≠ a) → s.station i = none → (∀ j < i, s.station j ≠ none) →
        s.Completes t c .ok [BitVec.ofNat 8 i.val, s.generation i] ∧
        s.OnlyStation t i (some
          { address := a, port := BitVec.ofNat 5 (Memory.read c 8).toNat, segment := BitVec.ofNat 12 (Memory.field c 9 2),
            defaultLease := BitVec.ofNat 16 (Memory.field c 11 2), identifiers := [], rules := [], template := none,
            state := .awake, lastSequence := none, lastAck := none, wakeAttempts := 0, answersSent := 0#16,
            wakesBegun := 0#16, framesShed := 0#16 }) ∧
        ({ t with stab := s.stab, cmde := s.cmde } : State).withPinsOf s = s)

/-- R120, R121, R175, R19, R18: a template of 60 to 128 bytes is stored, or cleared, in AWAKE and LAPSED alone.
STATION_READ returns the record and changes nothing. STATION_CLEAR_COUNTERS sets the three counters to 0. -/
def Obligations.TemplateReadClearResult : Prop :=
  ((∀ (s : State) (c : Memory), s.Latched 0x02#8 c →
    ∃ t, exec (.stationSetTemplate .completion) s = .next t ∧
      ((Memory.read c 4).toNat < 60 ∨ 128 < (Memory.read c 4).toNat → s.Refuses t c .badArgument) ∧
      ∀ i st, 60 ≤ (Memory.read c 4).toNat → (Memory.read c 4).toNat ≤ 128 → s.Resolves c i st →
        (st.state = .awake ∨ st.state = .lapsed →
          s.Completes t c .ok [] ∧
          s.OnlyStation t i (some { st with template := some (Memory.bytes c 5 (Memory.read c 4).toNat) }) ∧
          ({ t with stab := s.stab, cmde := s.cmde } : State).withPinsOf s = s) ∧
        (st.state ≠ .awake → st.state ≠ .lapsed → s.Refuses t c .stateConflict)) ∧
  ∀ (s : State) (c : Memory) (i : Slot) (st : Station), s.Latched 0x03#8 c → s.Resolves c i st →
    ∃ t, exec (.stationClearTemplate .completion) s = .next t ∧
      (st.state = .awake ∨ st.state = .lapsed →
        s.Completes t c .ok [] ∧ s.OnlyStation t i (some { st with template := none }) ∧
        ({ t with stab := s.stab, cmde := s.cmde } : State).withPinsOf s = s) ∧
      (st.state ≠ .awake → st.state ≠ .lapsed → s.Refuses t c .stateConflict)) ∧
  ((∀ (s : State) (c : Memory) (i : Slot) (st : Station), s.Latched 0x08#8 c → s.Resolves c i st →
    ∃ t, exec (.stationRead .completion) s = .next t ∧ s.Completes t c .ok (stationData i (s.generation i) st) ∧
      ({ t with cmde := s.cmde } : State).withPinsOf s = s) ∧
  ∀ (s : State) (c : Memory) (i : Slot) (st : Station), s.Latched 0x0C#8 c → s.Resolves c i st →
    ∃ t, exec (.stationClearCounters .completion) s = .next t ∧ s.Completes t c .ok [] ∧
      s.OnlyStation t i (some { st with answersSent := 0#16, wakesBegun := 0#16, framesShed := 0#16 }) ∧
      ({ t with stab := s.stab, cmde := s.cmde } : State).withPinsOf s = s)

/-- R20: STATION_FIND returns OK with the handle of the non-VACANT record that holds the address, in every state
and every mode, or NOT_FOUND when none holds it, also for an address that no record can hold; it changes
nothing. -/
def Obligations.StationFindResult : Prop :=
  ∀ (s : State) (c : Memory), s.Latched 0x0D#8 c → s.AddressesUnique →
    ∃ t, exec (.stationFind .completion) s = .next t ∧
      ((∀ i st, s.station i = some st → st.address ≠ addressArgument c) → s.Refuses t c .notFound) ∧
      ∀ i st, s.station i = some st → st.address = addressArgument c →
        s.Completes t c .ok [BitVec.ofNat 8 i.val, s.generation i] ∧
        ({ t with cmde := s.cmde } : State).withPinsOf s = s

/-- R51 to R53, R72, R73, R176, R177: an identifier is appended to the list and inserted in the map together, after
the checks in order; it is removed from both together. A DEFINED rule is appended to a rule list with its
count raised; it is removed with its count lowered. -/
def Obligations.ListCommandsResult : Prop :=
  ((∀ (s : State) (c : Memory) (id : Identifier), s.Latched 0x04#8 c → id = identifierArgument c →
    ∃ t, exec (.stationAddIdentifier .completion) s = .next t ∧
      (id = 0#32 ∨ id = 0xFFFFFFFF#32 ∨ 1 < (Memory.read c 8).toNat → s.Refuses t c .badArgument) ∧
      ∀ i st, id ≠ 0#32 → id ≠ 0xFFFFFFFF#32 → (Memory.read c 8).toNat ≤ 1 → s.Resolves c i st →
        (st.state = .retiring → s.Refuses t c .stateConflict) ∧
        (st.state ≠ .retiring → (∃ e ∈ s.idmap, e.identifier = id ∧ e.segment = st.segment) →
          s.Refuses t c .duplicateIdentifier) ∧
        (st.state ≠ .retiring → (∀ e ∈ s.idmap, e.identifier = id → e.segment ≠ st.segment) →
          (8 ≤ st.identifiers.length → s.Refuses t c .listFull) ∧
          (st.identifiers.length < 8 → 256 ≤ s.idmap.length → s.Refuses t c .mapFull) ∧
          (st.identifiers.length < 8 → s.idmap.length < 256 →
            s.Completes t c .ok [] ∧
            s.OnlyStation t i (some { st with identifiers := st.identifiers ++
              [{ identifier := id, wakeOnQuery := decide (Memory.read c 8 = 1#8) }] }) ∧
            t.idmap = s.idmap ++ [{ identifier := id, segment := st.segment, slot := i
                                    wakeOnQuery := decide (Memory.read c 8 = 1#8) }] ∧
            ({ t with stab := s.stab, idmap := s.idmap, cmde := s.cmde } : State).withPinsOf s = s))) ∧
  ∀ (s : State) (c : Memory) (id : Identifier), s.Latched 0x05#8 c → id = identifierArgument c →
    ∃ t, exec (.stationRemoveIdentifier .completion) s = .next t ∧
      (id = 0#32 ∨ id = 0xFFFFFFFF#32 → s.Refuses t c .badArgument) ∧
      ∀ i st, id ≠ 0#32 → id ≠ 0xFFFFFFFF#32 → s.Resolves c i st →
        (st.state = .retiring → s.Refuses t c .stateConflict) ∧
        (st.state ≠ .retiring → (∀ l ∈ st.identifiers, l.identifier ≠ id) → s.Refuses t c .notFound) ∧
        (st.state ≠ .retiring → (∃ l ∈ st.identifiers, l.identifier = id) →
          s.Completes t c .ok [] ∧
          s.OnlyStation t i (some { st with identifiers := st.identifiers.filter fun l => decide (l.identifier ≠ id) }) ∧
          t.idmap = s.idmap.filter (fun e => decide (¬ (e.identifier = id ∧ e.segment = st.segment))) ∧
          ({ t with stab := s.stab, idmap := s.idmap, cmde := s.cmde } : State).withPinsOf s = s)) ∧
  ((∀ (s : State) (c : Memory), s.Latched 0x06#8 c →
    ∃ t, exec (.stationAttachRule .completion) s = .next t ∧
      (95 < listedRuleByte c → s.Refuses t c .badArgument) ∧
      ∀ (n : RuleNumber) i st, n.val = listedRuleByte c → s.Resolves c i st →
        (st.state = .retiring → s.Refuses t c .stateConflict) ∧
        (st.state ≠ .retiring → s.rstore[n.val].body = none → s.Refuses t c .ruleUndefined) ∧
        (st.state ≠ .retiring → s.rstore[n.val].body ≠ none →
          (n ∈ st.rules → s.Refuses t c .duplicateRule) ∧
          (n ∉ st.rules → 8 ≤ st.rules.length → s.Refuses t c .listFull) ∧
          (n ∉ st.rules → st.rules.length < 8 →
            s.Completes t c .ok [] ∧ s.OnlyStation t i (some { st with rules := st.rules ++ [n] }) ∧
            (∀ m : RuleNumber, t.rstore[m.val] =
              if m = n then { s.rstore[n.val] with refCount := s.rstore[n.val].refCount + 1 } else s.rstore[m.val]) ∧
            ({ t with stab := s.stab, rstore := s.rstore, cmde := s.cmde } : State).withPinsOf s = s))) ∧
  ∀ (s : State) (c : Memory), s.Latched 0x07#8 c →
    ∃ t, exec (.stationDetachRule .completion) s = .next t ∧
      (95 < listedRuleByte c → s.Refuses t c .badArgument) ∧
      ∀ (n : RuleNumber) i st, n.val = listedRuleByte c → s.Resolves c i st →
        (st.state = .retiring → s.Refuses t c .stateConflict) ∧
        (st.state ≠ .retiring → n ∉ st.rules → s.Refuses t c .notFound) ∧
        (st.state ≠ .retiring → n ∈ st.rules →
          s.Completes t c .ok [] ∧ s.OnlyStation t i (some { st with rules := st.rules.erase n }) ∧
          (∀ m : RuleNumber, t.rstore[m.val] =
            if m = n then { s.rstore[n.val] with refCount := s.rstore[n.val].refCount - 1 } else s.rstore[m.val]) ∧
          ({ t with stab := s.stab, rstore := s.rstore, cmde := s.cmde } : State).withPinsOf s = s))

/-- R178, R179, R29 to R33, R37, R38: STATION_SLEEP and STATION_WAKE are NOT_RUNNING outside RUNNING. STATION_SLEEP
places a DIVERT for an AWAKE or LAPSED record with the link UP and a template, renews the lease of an ASLEEP
one, is OK in ENTERING and STATE_CONFLICT in the rest. STATION_WAKE begins the waking of an ASLEEP record with
cause COMMAND, is OK at a WAKING one and STATE_CONFLICT at every other. -/
def Obligations.SleepAndWakeCommandsResult : Prop :=
  ((∀ (s : State) (c : Memory), s.Latched 0x09#8 c → slotByte c ≤ 63 → s.steer.mode ≠ .running →
    ∃ t, exec (.stationSleep .completion) s = .next t ∧ s.Refuses t c .notRunning) ∧
  ∀ (s : State) (c : Memory) (i : Slot) (st : Station) (lease : Half), s.Latched 0x09#8 c → s.Resolves c i st →
    s.steer.mode = .running → lease = BitVec.ofNat 16 (Memory.field c 4 2) →
    ∃ t, exec (.stationSleep .completion) s = .next t ∧
      (st.state = .awake ∨ st.state = .lapsed →
        (s.steer.link ≠ .up → s.Refuses t c .linkDown) ∧
        (s.steer.link = .up → st.template = none → s.Refuses t c .noTemplate) ∧
        (s.steer.link = .up → st.template ≠ none →
          s.Completes t c .pending [] ∧ s.OnlyStation t i (some { st with state := .entering (.commanded lease) }) ∧
          t.steer = s.steer.withRequest .divert i st ∧
          ({ t with stab := s.stab, steer := s.steer, cmde := s.cmde } : State).withPinsOf s = s)) ∧
      ((∃ o, st.state = .entering o) → s.Refuses t c .ok) ∧
      ((∃ l, st.state = .asleep l) →
        let effective := if lease = 0#16 then st.defaultLease else lease
        let renewed := if effective = 0#16 then none else some { remaining := effective, runOut := false }
        s.Completes t c .ok [] ∧ s.OnlyStation t i (some { st with state := .asleep renewed }) ∧
        ({ t with stab := s.stab, cmde := s.cmde } : State).withPinsOf s = s) ∧
      ((∃ cause held, st.state = .waking cause held) ∨ (∃ r cause, st.state = .leaving r cause) ∨
        st.state = .retiring → s.Refuses t c .stateConflict)) ∧
  ((∀ (s : State) (c : Memory), s.Latched 0x0A#8 c → slotByte c ≤ 63 → s.steer.mode ≠ .running →
    ∃ t, exec (.stationWake .completion) s = .next t ∧ s.Refuses t c .notRunning) ∧
  ∀ (s : State) (c : Memory) (i : Slot) (st : Station), s.Latched 0x0A#8 c → s.Resolves c i st →
    s.steer.mode = .running →
    ∃ t, exec (.stationWake .completion) s = .next t ∧
      ((∃ l, st.state = .asleep l) →
        s.Completes t c .ok [] ∧ s.BeginsWaking t i st .command none ∧ t.nq = s.nq.post (s.wakeBegunPost i .command) ∧
        ({ t with stab := s.stab, wake := s.wake, emit := s.emit, nq := s.nq, cmde := s.cmde } : State).withPinsOf s = s) ∧
      ((∃ cause held, st.state = .waking cause held) → s.Refuses t c .ok) ∧
      ((∀ l, st.state ≠ .asleep l) → (∀ cause held, st.state ≠ .waking cause held) → s.Refuses t c .stateConflict))

/-- R180, R23, R41 to R43: STATION_RETIRE makes an AWAKE or LAPSED record VACANT with the vacancy clean-up,
makes an ASLEEP or WAKING record RETIRING with a RESTORE placed, is OK at a RETIRING record and
STATE_CONFLICT at the rest. -/
def Obligations.StationRetireResult : Prop :=
  ∀ (s : State) (c : Memory) (i : Slot) (st : Station), s.Latched 0x0B#8 c → s.Resolves c i st →
    ∃ t, exec (.stationRetire .completion) s = .next t ∧
      (st.state = .awake ∨ st.state = .lapsed →
        s.Completes t c .ok [] ∧
        (∀ j, t.station j = if j = i then none else s.station j) ∧
        (∀ j, t.generation j = if j = i then s.generation i + 1#8 else s.generation j) ∧
        t.idmap = s.idmap.filter (fun e =>
          decide (¬ (e.segment = st.segment ∧ ∃ l ∈ st.identifiers, l.identifier = e.identifier))) ∧
        (st.rules.Nodup → ∀ n : RuleNumber, t.rstore[n.val] = { s.rstore[n.val] with
          refCount := if n ∈ st.rules then s.rstore[n.val].refCount - 1 else s.rstore[n.val].refCount }) ∧
        t.nq = s.nq.post { kind := .stationRetired, subject := some (i, s.generation i), detail := .none } ∧
        ({ t with stab := s.stab, idmap := s.idmap, rstore := s.rstore, nq := s.nq, cmde := s.cmde } : State).withPinsOf s = s) ∧
      ((∃ l, st.state = .asleep l) →
        s.Completes t c .pending [] ∧ s.OnlyStation t i (some { st with state := .retiring }) ∧
        t.steer = s.steer.withRequest .restore i st ∧
        ({ t with stab := s.stab, steer := s.steer, cmde := s.cmde } : State).withPinsOf s = s) ∧
      (∀ cause held, st.state = .waking cause held →
        s.Completes t c .pending [] ∧ s.OnlyStation t i (some { st with state := .retiring }) ∧
        t.steer = s.steer.withRequest .restore i st ∧ t.wake = tset s.wake i none ∧
        t.emit = { s.emit with waiting := s.emit.waiting.filter fun x => decide (x.kind ≠ .wake i st.address) } ∧
        (∀ b : Fin 16, t.hold[b.val] = if held = some b then .free else s.hold[b.val]) ∧
        ({ t with stab := s.stab, steer := s.steer, wake := s.wake, emit := s.emit, hold := s.hold
                  cmde := s.cmde } : State).withPinsOf s = s) ∧
      (st.state = .retiring → s.Refuses t c .ok) ∧
      ((∃ o, st.state = .entering o) ∨ (∃ r cause, st.state = .leaving r cause) → s.Refuses t c .stateConflict)

/-- R60, R69, R70, R183, R184: RULE_DEFINE stores a valid rule in a FREE place with count 0; RULE_DELETE frees a
DEFINED rule that no record lists; the checks are in order. -/
def Obligations.RuleDefineDeleteResult : Prop :=
  (∀ (s : State) (c : Memory) (spans : List Span), s.Latched 0x20#8 c →
    spans = spanArguments c (Memory.read c 4).toNat →
    ∃ t, exec (.ruleDefine .completion) s = .next t ∧
      (95 < ruleByte c ∨ Memory.read c 3 ≠ 1#8 ∧ Memory.read c 3 ≠ 2#8 ∨ (Memory.read c 4).toNat < 1 ∨
        8 < (Memory.read c 4).toNat ∨
        ¬ ((∀ x ∈ spans, x.offset ≤ 1535 ∧ 1 ≤ x.length ∧ x.length ≤ 64 ∧ x.offset + x.length ≤ 1536) ∧
          spans.Pairwise (fun x y => x.offset + x.length ≤ y.offset) ∧ (spans.map (·.length)).sum ≤ 256) →
        s.Refuses t c .badArgument) ∧
      ∀ (n : RuleNumber) (scope : Scope), n.val = ruleByte c → scope.number = Memory.read c 3 →
        1 ≤ (Memory.read c 4).toNat → (Memory.read c 4).toNat ≤ 8 →
        (∀ x ∈ spans, x.offset ≤ 1535 ∧ 1 ≤ x.length ∧ x.length ≤ 64 ∧ x.offset + x.length ≤ 1536) →
        spans.Pairwise (fun x y => x.offset + x.length ≤ y.offset) → (spans.map (·.length)).sum ≤ 256 →
        (s.rstore[n.val].body ≠ none → s.Refuses t c .ruleDefined) ∧
        (s.rstore[n.val].body = none →
          s.Completes t c .ok [] ∧
          (∀ m : RuleNumber, t.rstore[m.val] = if m = n then
            { refCount := 0
              body := some { scope := scope, spans := spans, digest := BitVec.ofNat 32 (Memory.field c 5 4) } }
            else s.rstore[m.val]) ∧
          ({ t with rstore := s.rstore, cmde := s.cmde } : State).withPinsOf s = s)) ∧
  (∀ (s : State) (c : Memory), s.Latched 0x21#8 c →
    ∃ t, exec (.ruleDelete .completion) s = .next t ∧
      (95 < ruleByte c → s.Refuses t c .badArgument) ∧
      ∀ n : RuleNumber, n.val = ruleByte c →
        (s.rstore[n.val].body = none → s.Refuses t c .ruleUndefined) ∧
        (s.rstore[n.val].body ≠ none → 0 < s.rstore[n.val].refCount → s.Refuses t c .ruleInUse) ∧
        (s.rstore[n.val].body ≠ none → s.rstore[n.val].refCount = 0 →
          s.Completes t c .ok [] ∧
          (∀ m : RuleNumber, t.rstore[m.val] = if m = n then { refCount := 0, body := none } else s.rstore[m.val]) ∧
          ({ t with rstore := s.rstore, cmde := s.cmde } : State).withPinsOf s = s))

/-- R71, Table 12-7: RULE_READ returns OK with the rule's state and reference count, and for a DEFINED rule its
scope, its span list in span order and its digest; for a FREE rule no scope, spans or digest; it changes
nothing. -/
def Obligations.RuleReadResult : Prop :=
  ∀ (s : State) (c : Memory), s.Latched 0x22#8 c →
    ∃ t, exec (.ruleRead .completion) s = .next t ∧
      (95 < ruleByte c → s.Refuses t c .badArgument) ∧
      ∀ n : RuleNumber, n.val = ruleByte c → s.rstore[n.val].refCount ≤ 64 →
        ({ t with cmde := s.cmde } : State).withPinsOf s = s ∧
        ∃ data, s.Completes t c .ok data ∧ data.length = 41 ∧ fieldAt data 0 1 = n.val ∧
          fieldAt data 2 1 = s.rstore[n.val].refCount ∧
          (s.rstore[n.val].body = none → byteAt data 1 = 0#8 ∧ ∀ k, 3 ≤ k → byteAt data k = 0#8) ∧
          ∀ b, s.rstore[n.val].body = some b → b.spans.length ≤ 8 →
            (∀ x ∈ b.spans, x.offset < 65536 ∧ x.length < 65536) →
            byteAt data 1 = 1#8 ∧ byteAt data 3 = (match b.scope with
              | .directed => 1#8
              | .any => 2#8) ∧
            fieldAt data 4 1 = b.spans.length ∧ fieldAt data 5 4 = b.digest.toNat ∧
            ∀ k (h : k < b.spans.length),
              fieldAt data (9 + 4 * k) 2 = b.spans[k].offset ∧ fieldAt data (11 + 4 * k) 2 = b.spans[k].length

/-- R156, R185, R171: STEER_RESTART with the link DOWN sends the request in flight again with its own
sequence and retries 0, the link UP and the timer started; with nothing in flight the link becomes UP and nothing is
sent; with the link not DOWN it is NOT_DOWN. A code that names no command is BAD_COMMAND. -/
def Obligations.RestartAndUnknownResult : Prop :=
  (∀ (s : State) (c : Memory), s.Latched 0x30#8 c → s.steer.link ≠ .down →
    ∃ t, exec (.steerRestart .completion) s = .next t ∧ s.Refuses t c .notDown) ∧
  (∀ (s : State) (c : Memory) (f : InFlight), s.Latched 0x30#8 c → s.steer.link = .down → s.steer.inFlight = some f →
    ∃ t, exec (.steerRestart .completion) s = .next t ∧ s.Completes t c .ok [] ∧
      t.steer = { s.steer with link := .up, inFlight := some { f with retries := 0 }
                               ackTimer := some s.mport.settings.steerAckTimeout.toNat } ∧
      t.out = s.out.beginMessage (requestMessage f.body f.sequence) ∧
      ({ t with steer := s.steer, out := s.out, cmde := s.cmde } : State).withPinsOf s = s) ∧
  (∀ (s : State) (c : Memory), s.Latched 0x30#8 c → s.steer.link = .down → s.steer.inFlight = none →
    ∃ t, exec (.steerRestart .completion) s = .next t ∧ s.Completes t c .ok [] ∧ t.steer = { s.steer with link := .up } ∧
      ({ t with steer := s.steer, cmde := s.cmde } : State).withPinsOf s = s) ∧
  ∀ (s : State) (c : Memory) (code : Byte), s.Latched code c →
    (code = 0x00#8 ∨ 0x0D#8 < code ∧ code < 0x20#8 ∨ 0x22#8 < code ∧ code < 0x30#8 ∨ 0x30#8 < code) →
    ∃ t, exec (.unknownCommandCode .completion) s = .next t ∧ s.Refuses t c .badCommand

/-! ### Frames in -/

/-- R75 to R77, R207: with the intake port ready a transfer takes the lowest free slot (the model's choice,
assumption log 12) and at its end stands there, last in arrival order, with its tag, the first 1536 of its frame bytes
and their number; its first test waits for its turn (assumption log 11). A transfer is its start and its end (log 12).
One whose arrival has started completes into its slot in every mode. With the port not ready, or with a transfer in
progress, nothing starts; with none in progress nothing ends (log 2). -/
def Obligations.FrameArrivalResult : Prop :=
  (∀ (s : State) (tag : IntakeTag) (bytes : List Byte) (j : Fin 4), s.steer.mode = .running →
    s.icls.slots[j.val] = .free → (∀ k : Fin 4, k < j → s.icls.slots[k.val] ≠ .free) →
    (∀ k : Fin 4, s.icls.slots[k.val] ≠ .arriving) →
    ∃ t u, exec (.frameArrival (.whole tag bytes)) s = .next t ∧ exec (.frameArrival .start) s = .next u ∧
      exec (.frameArrival (.finish tag bytes)) u = .next t ∧
      u.icls = { s.icls with slots := tset s.icls.slots j .arriving } ∧
      t.icls = { s.icls with slots := tset s.icls.slots j (.received { tag := tag, bytes := bytes.take 1536, count := bytes.length })
                             arrivals := s.icls.arrivals ++ [j] } ∧
      ({ u with icls := s.icls } : State).withPinsOf s = s ∧ ({ t with icls := s.icls } : State).withPinsOf s = s) ∧
  (∀ (s : State) (tag : IntakeTag) (bytes : List Byte) (j : Fin 4), s.icls.slots[j.val] = .arriving →
    (∀ k : Fin 4, k < j → s.icls.slots[k.val] ≠ .arriving) →
    ∃ t, exec (.frameArrival (.finish tag bytes)) s = .next t ∧
      t.icls = { s.icls with slots := tset s.icls.slots j (.received { tag := tag, bytes := bytes.take 1536, count := bytes.length })
                             arrivals := s.icls.arrivals ++ [j] } ∧
      ({ t with icls := s.icls } : State).withPinsOf s = s) ∧
  (∀ (s : State) (tag : IntakeTag) (bytes : List Byte),
    (s.steer.mode ≠ .running ∨ (∀ k : Fin 4, s.icls.slots[k.val] ≠ .free) ∨ ∃ k : Fin 4, s.icls.slots[k.val] = .arriving) →
    ∃ t, exec (.frameArrival (.whole tag bytes)) s = .next t ∧ exec (.frameArrival .start) s = .next t ∧ t.withPinsOf s = s) ∧
  ∀ (s : State) (tag : IntakeTag) (bytes : List Byte), (∀ k : Fin 4, s.icls.slots[k.val] ≠ .arriving) →
    ∃ t, exec (.frameArrival (.finish tag bytes)) s = .next t ∧ t.withPinsOf s = s

/-- R75, R77, R81 to R85, R207: test 1 of the oldest arrival lets a frame go on when its tag is in range, its length is
14 to 1536 and it has as many frame bytes as the tag says, and discards every other. Test 2 presents a sighting for the record that holds the frame's source address, when the frame came
in by the record's port and segment, is not in announcement form, and the record is ASLEEP, WAKING, LEAVING
with reason EXHAUSTED, or LAPSED; the next test follows the delivery reason. Test 3 ends a DIRECT frame: an
announcement of a known announcer is presented to STAB, one of an unknown announcer posts
UNKNOWN_ANNOUNCER, and any other frame is discarded. -/
def Obligations.FirstTestsResult : Prop :=
  (∀ (s : State) (j : Fin 4) (rest : List (Fin 4)) (a : Arrived), s.icls.arrivals = j :: rest →
    s.icls.slots[j.val] = .received a →
    ∃ t, exec (.frameClassification (.tests 1)) s = .next t ∧ ({ t with icls := s.icls } : State).withPinsOf s = s ∧
      (∀ f : Frame, f.ingress.toNat = a.tag.ingress.toNat → f.segment.toNat = a.tag.segment.toNat → f.bytes = a.bytes →
        (f.reason = .steered ∧ a.tag.reason = 1#8 ∨ f.reason = .flood ∧ a.tag.reason = 2#8 ∨
          f.reason = .direct ∧ a.tag.reason = 3#8) →
        14 ≤ a.tag.length.toNat → a.tag.length.toNat ≤ 1536 → a.count = a.tag.length.toNat →
        t.icls = { s.icls with slots := tset s.icls.slots j (.unclassified f)
                               current := some { next := .sighting, sighted := none } }) ∧
      (31 < a.tag.ingress.toNat ∨ 4095 < a.tag.segment.toNat ∨ a.tag.reason.toNat < 1 ∨ 3 < a.tag.reason.toNat ∨
        a.tag.length.toNat < 14 ∨ 1536 < a.tag.length.toNat ∨ a.count ≠ a.tag.length.toNat → s.Ends t j .free)) ∧
  (∀ (s : State) (j : Fin 4) (f : Frame) (g : Option Slot) (next : NextTest), s.Classifying j f .sighting g →
    s.AddressesUnique →
    (f.reason = .steered ∧ next = .probe ∨ f.reason = .flood ∧ next = .query ∨ f.reason = .direct ∧ next = .announcement) →
    ∃ t, exec (.frameClassification (.tests 1)) s = .next t ∧
      (∀ i st, s.station i = some st → st.address = frameSource f.bytes → f.ingress = st.port → f.segment = st.segment →
        ¬ s.AnnouncementForm f → ((∃ l, st.state = .asleep l) ∨ (∃ cause held, st.state = .waking cause held) ∨
          (∃ cause, st.state = .leaving .exhausted cause) ∨ st.state = .lapsed) →
        s.GoesOn t (some i) next ∧
        t.presented = s.presented ++ [{ slot := i, address := st.address, kind := .sighting }] ∧
        ({ t with icls := s.icls, presented := s.presented } : State).withPinsOf s = s) ∧
      (s.AnnouncementForm f ∨
        (∀ i st, s.station i = some st → st.address = frameSource f.bytes →
          f.ingress ≠ st.port ∨ f.segment ≠ st.segment ∨ st.state = .awake ∨ (∃ o, st.state = .entering o) ∨
          (∃ cause, st.state = .leaving .confirmed cause) ∨ st.state = .retiring) →
        s.GoesOn t none next ∧ ({ t with icls := s.icls } : State).withPinsOf s = s)) ∧
  (∀ (s : State) (j : Fin 4) (f : Frame) (g : Option Slot), s.Classifying j f .announcement g → s.AddressesUnique →
    ∃ t, exec (.frameClassification (.tests 1)) s = .next t ∧ s.Ends t j .free ∧
      (¬ s.AnnouncementForm f ∨ s.mport.settings.partAddress = 0#48 ∨ f.bytes.length < 20 ∨
          (frameSource f.bytes).getLsbD 40 = true ∨ byteAt f.bytes 14 ≠ 1#8 ∧ byteAt f.bytes 14 ≠ 2#8 →
        ({ t with icls := s.icls } : State).withPinsOf s = s) ∧
      ∀ op : AnnounceOp, s.AnnouncementForm f → s.mport.settings.partAddress ≠ 0#48 → 20 ≤ f.bytes.length →
        (frameSource f.bytes).getLsbD 40 = false →
        (op = .sleep ∧ byteAt f.bytes 14 = 1#8 ∨ op = .awake ∧ byteAt f.bytes 14 = 2#8) →
        (∀ i st, s.station i = some st → st.address = frameSource f.bytes → f.ingress = st.port → f.segment = st.segment →
          t.presented = s.presented ++ [{ slot := i, address := st.address
                                          kind := .announcement op (BitVec.ofNat 16 (fieldAt f.bytes 16 2))
                                            (BitVec.ofNat 16 (fieldAt f.bytes 18 2)) }] ∧
          ({ t with icls := s.icls, presented := s.presented } : State).withPinsOf s = s) ∧
        ((∀ i st, s.station i = some st → st.address = frameSource f.bytes → f.ingress ≠ st.port ∨ f.segment ≠ st.segment) →
          t.nq = s.nq.post { kind := .unknownAnnouncer, subject := none, detail := .address (frameSource f.bytes) } ∧
          ({ t with icls := s.icls, nq := s.nq } : State).withPinsOf s = s))

/-- R54, R55, R89 to R91: a FLOOD query's lookup gives the slot and the flag of the map's entry or no entry, and its
use reads the record in the slot then: an ASLEEP or WAKING record not the sender's own gives a REPLY job,
and an ASLEEP one also a wake trigger when the flag is set. A STEERED probe of an ASLEEP or WAKING record,
from a sender that is no group address and not the record's own, gives a PROBE_REPLY job and ends; every
other STEERED frame goes on to test 5. -/
def Obligations.AnswerTestsResult : Prop :=
  ((∀ (s : State) (j : Fin 4) (f : Frame) (g : Option Slot), s.Classifying j f .query g →
    (s.idmap.map MapEntry.key).Nodup →
    ∃ t, exec (.frameClassification (.tests 1)) s = .next t ∧ ({ t with icls := s.icls } : State).withPinsOf s = s ∧
      (¬ s.QueryForm f ∨ byteAt f.bytes 14 ≠ 1#8 ∨ (querySender f.bytes).getLsbD 40 = true ∨
        (∀ e ∈ s.idmap, e.identifier = queryTarget f.bytes → e.segment ≠ f.segment) → s.GoesOn t g (.flood 0)) ∧
      ∀ e ∈ s.idmap, e.identifier = queryTarget f.bytes → e.segment = f.segment → s.QueryForm f → byteAt f.bytes 14 = 1#8 →
        (querySender f.bytes).getLsbD 40 = false → s.GoesOn t g (.answer e.slot e.wakeOnQuery)) ∧
  ∀ (s : State) (j : Fin 4) (f : Frame) (g : Option Slot) (i : Slot) (flag : Bool), s.Classifying j f (.answer i flag) g →
    ∃ t, exec (.frameClassification (.tests 1)) s = .next t ∧ s.GoesOn t g (.flood 0) ∧
      (s.station i = none → ({ t with icls := s.icls } : State).withPinsOf s = s) ∧
      ∀ st, s.station i = some st →
        (st.address = querySender f.bytes ∨
            (∀ l, st.state ≠ .asleep l) ∧ (∀ cause held, st.state ≠ .waking cause held) →
          ({ t with icls := s.icls } : State).withPinsOf s = s) ∧
        (st.address ≠ querySender f.bytes → ((∃ l, st.state = .asleep l) ∨ ∃ cause held, st.state = .waking cause held) →
          t.resp = { s.resp with answerJobs := s.resp.answerJobs ++
            [{ kind := .reply (queryTarget f.bytes), slot := i, address := st.address, sender := querySender f.bytes,
               senderIdentifier := querySenderIdentifier f.bytes, port := f.ingress, segment := f.segment }] } ∧
          t.presented = s.presented ++ (if flag = true ∧ st.state.isAsleep = true then
            [{ slot := i, address := st.address, kind := .trigger (.query (queryTarget f.bytes)) none }] else []) ∧
          ({ t with icls := s.icls, resp := s.resp, presented := s.presented } : State).withPinsOf s = s)) ∧
  (∀ (s : State) (j : Fin 4) (f : Frame) (g : Option Slot), s.Classifying j f .probe g → s.AddressesUnique →
    ∃ t, exec (.frameClassification (.tests 1)) s = .next t ∧
      (∀ i st, s.QueryForm f → byteAt f.bytes 14 = 3#8 → (querySender f.bytes).getLsbD 40 = false →
        s.station i = some st → st.address = frameDestination f.bytes → querySender f.bytes ≠ st.address →
        ((∃ l, st.state = .asleep l) ∨ ∃ cause held, st.state = .waking cause held) →
        s.Ends t j .free ∧
        t.resp = { s.resp with answerJobs := s.resp.answerJobs ++
          [{ kind := .probeReply, slot := i, address := st.address, sender := querySender f.bytes,
             senderIdentifier := querySenderIdentifier f.bytes, port := f.ingress, segment := f.segment }] } ∧
        ({ t with icls := s.icls, resp := s.resp } : State).withPinsOf s = s) ∧
      (¬ s.QueryForm f ∨ byteAt f.bytes 14 ≠ 3#8 ∨ (querySender f.bytes).getLsbD 40 = true ∨
        (∀ i st, s.station i = some st → st.address = frameDestination f.bytes → querySender f.bytes = st.address ∨
          (∀ l, st.state ≠ .asleep l) ∧ ∀ cause held, st.state ≠ .waking cause held) →
        s.GoesOn t g .steered ∧ ({ t with icls := s.icls } : State).withPinsOf s = s))

/-- R92 to R94: test 5: a STEERED frame to no record is a stray; to an ASLEEP record it is presented with the
wake trigger of the first rule that matches, or shed; to a WAKING record it is shed; to any other it is
passed through, or shed when the emission queue is full. -/
def Obligations.SteeredTest : Prop :=
  ∀ (s : State) (j : Fin 4) (f : Frame) (g : Option Slot), s.Classifying j f .steered g → s.AddressesUnique →
    ∃ t, exec (.frameClassification (.tests 1)) s = .next t ∧
      ((∀ i st, s.station i = some st → st.address ≠ frameDestination f.bytes) →
        s.Ends t j .free ∧ ({ t with icls := s.icls } : State).withPinsOf s = s) ∧
      ∀ i st, s.station i = some st → st.address = frameDestination f.bytes →
        (∀ n, (∃ l, st.state = .asleep l) → s.FirstMatch st.rules f n →
          s.Ends t j (.triggered f) ∧
          t.presented = s.presented ++ [{ slot := i, address := st.address, kind := .trigger (.rule n) (some j) }] ∧
          ({ t with icls := s.icls, presented := s.presented } : State).withPinsOf s = s) ∧
        ((∃ l, st.state = .asleep l) ∧ (∀ n ∈ st.rules, ruleMatches s.rstore f n = false) ∨
            (∃ cause held, st.state = .waking cause held) ∨
            (∀ l, st.state ≠ .asleep l) ∧ 16 ≤ s.emit.size →
          s.Ends t j .free ∧ t.presented = s.presented ++ [{ slot := i, address := st.address, kind := .shed }] ∧
          ({ t with icls := s.icls, presented := s.presented } : State).withPinsOf s = s) ∧
        ((∀ l, st.state ≠ .asleep l) → (∀ cause held, st.state ≠ .waking cause held) → s.emit.size < 16 →
          s.Ends t j (.passing f) ∧
          t.emit = { s.emit with waiting := s.emit.waiting ++ [{ kind := .pass j, port := st.port, segment := st.segment }] } ∧
          ({ t with icls := s.icls, emit := s.emit } : State).withPinsOf s = s)

/-- R67, R95: test 6 presents one wake trigger for every ASLEEP record of the frame's segment that lists an ANY
rule and has an admitted rule that matches, but for the record the frame was a sighting of; then the frame
is done. The order of the triggers is not stated: it is the model's choice (assumption log 27). -/
def Obligations.FloodTest : Prop :=
  ∀ (s : State) (j : Fin 4) (f : Frame) (g : Option Slot), s.Classifying j f (.flood 0) g →
    ∃ t new, exec (.frameClassification .whole) s = .next t ∧ s.Ends t j .free ∧ t.presented = s.presented ++ new ∧
      ({ t with icls := s.icls, presented := s.presented } : State).withPinsOf s = s ∧
      (new.map (·.slot)).Nodup ∧
      ∀ p, p ∈ new ↔ ∃ i st l n, s.station i = some st ∧ st.state = .asleep l ∧ st.segment = f.segment ∧
        (∃ m ∈ st.rules, ∃ b, s.rstore[m.val].body = some b ∧ b.scope = .any) ∧
        ¬ (g = some i ∧ st.address = frameSource f.bytes) ∧ s.FirstMatch st.rules f n ∧
        p = { slot := i, address := st.address, kind := .trigger (.rule n) none }

/-- R77, R79: the tests of a frame are made one after another: the whole classification is what single tests
repeated make, it ends, and what arrived after the frame waits. A row that makes the next n tests or all that are
left, and one that finds no frame, are the model's choices (assumption logs 10 and 2). -/
def Obligations.ClassificationEnds : Prop :=
  (∀ (s t : State) (n : Nat), exec (.frameClassification (.tests 1)) s = .next t → t.icls.current ≠ none →
    exec (.frameClassification (.tests (n + 1))) s = exec (.frameClassification (.tests n)) t) ∧
  (∀ (s t : State) (n : Nat), exec (.frameClassification (.tests 1)) s = .next t → t.icls.current = none →
    exec (.frameClassification (.tests (n + 1))) s = .next t) ∧
  (∀ (s : State) (n : Nat), 70 ≤ n → exec (.frameClassification .whole) s = exec (.frameClassification (.tests n)) s) ∧
  (∀ (s : State) (j : Fin 4) (rest : List (Fin 4)), s.icls.arrivals = j :: rest →
    ((∃ a, s.icls.slots[j.val] = .received a) ∨ ∃ f, s.icls.slots[j.val] = .unclassified f) →
    ∃ t, exec (.frameClassification .whole) s = .next t ∧ t.icls.current = none ∧ t.icls.arrivals = rest ∧
      ∀ k : Fin 4, k ≠ j → t.icls.slots[k.val] = s.icls.slots[k.val]) ∧
  ∀ s : State, s.icls.arrivals = [] → ∃ t, exec (.frameClassification .whole) s = .next t ∧ t.withPinsOf s = s

/-- R61 to R64: a rule matches a frame when its scope admits the delivery, every span lies within the frame,
and the 32-bit cyclic check of the spans' bytes is its digest. The check takes the bits of each byte from bit 0 to
bit 7: the register is shifted one place toward bit 0, and exclusive-ored with 0x82F63B78 when its bit 0 differed from
the bit taken; it starts with all ones and is complemented at the end. The check of the nine characters 1 to 9 is
0xE3069283. -/
def Obligations.RuleEvaluation : Prop :=
  (∀ (rules : Vector Rule 96) (f : Frame) (n : RuleNumber), ruleMatches rules f n = true ↔
    ∃ b, rules[n.val].body = some b ∧ (f.reason = .steered ∨ f.reason = .flood ∧ b.scope = .any) ∧
      (∀ x ∈ b.spans, x.offset + x.length ≤ f.bytes.length) ∧
      cyclicCheck (b.spans.flatMap fun x => (f.bytes.drop x.offset).take x.length) = b.digest) ∧
  (∀ (rules : Vector Rule 96) (list : List RuleNumber) (f : Frame) (n : RuleNumber), evaluate rules list f = some n ↔
    ∃ before after, list = before ++ n :: after ∧ (∀ m ∈ before, ruleMatches rules f m = false) ∧
      ruleMatches rules f n = true) ∧
  (∀ (r : BitVec 32) (b : Bool), checkBit r b = if (r.getLsbD 0 ^^ b) = true then (r >>> 1) ^^^ 0x82F63B78#32 else r >>> 1) ∧
  (∀ (r : BitVec 32) (x : Byte), checkByteInto r x =
    [x.getLsbD 0, x.getLsbD 1, x.getLsbD 2, x.getLsbD 3, x.getLsbD 4, x.getLsbD 5, x.getLsbD 6, x.getLsbD 7].foldl checkBit r) ∧
  (∀ bytes : List Byte, cyclicCheck bytes = ~~~(bytes.foldl checkByteInto 0xFFFFFFFF#32)) ∧
  cyclicCheck [0x31#8, 0x32#8, 0x33#8, 0x34#8, 0x35#8, 0x36#8, 0x37#8, 0x38#8, 0x39#8] = 0xE3069283#32 ∧
  cyclicCheck [0x00#8] = 0x527D5351#32

/-! ### Events at the Station Table -/

/-- R25, R27, R28, R33, R87: an awake confirmation at every state but WAKING: ASLEEP leaves, ENTERING turns back
when its DIVERT is still unsent and leaves when it is in flight, an exhausted LEAVING becomes CONFIRMED,
LAPSED returns, and AWAKE, RETIRING and a confirmed LEAVING stay. The event comes by a sighting, by a new
AWAKE announcement, or by a new SLEEP announcement at a record it first confirms. -/
def Obligations.ConfirmationResult : Prop :=
  ∀ (s : State) (c : Instr) (i : Slot) (st st' : Station) (jobs : List AckJob) (before after : List Presented),
    s.ConfirmationEvent c i st st' jobs before after → (∀ cause held, st.state ≠ .waking cause held) →
    ∃ t, exec c s = .next t ∧ t.presented = before ++ after ∧ s.HandsAcks t jobs ∧
      ({ t with presented := s.presented, resp := s.resp, stab := s.stab, steer := s.steer, nq := s.nq } : State).withPinsOf s = s ∧
      ((∃ l, st.state = .asleep l) →
        s.OnlyStation t i (some { st' with state := .leaving .confirmed none }) ∧
        t.steer = s.steer.withRequest .restore i st ∧ t.nq = s.nq) ∧
      ((∃ o, st.state = .entering o) →
        (∀ r pre post, s.steer.queue = pre ++ r :: post → r.kind = .divert → r.slot = i →
          (∀ q ∈ pre, ¬ (q.kind = .divert ∧ q.slot = i)) →
          s.OnlyStation t i (some { st' with state := .awake }) ∧ t.steer = { s.steer with queue := pre ++ post } ∧
          t.nq = s.nq.post { kind := .stationReturned, subject := some (i, s.generation i), detail := .none }) ∧
        ((∀ q ∈ s.steer.queue, ¬ (q.kind = .divert ∧ q.slot = i)) → s.steer.sent i = some .divert →
          s.OnlyStation t i (some { st' with state := .leaving .confirmed none }) ∧
          t.steer = s.steer.withRequest .restore i st ∧ t.nq = s.nq)) ∧
      (∀ cause, st.state = .leaving .exhausted cause →
        s.OnlyStation t i (some { st' with state := .leaving .confirmed cause }) ∧ t.steer = s.steer ∧ t.nq = s.nq) ∧
      (st.state = .lapsed →
        s.OnlyStation t i (some { st' with state := .awake }) ∧ t.steer = s.steer ∧
        t.nq = s.nq.post { kind := .stationReturned, subject := some (i, s.generation i), detail := .none }) ∧
      (st.state = .awake ∨ st.state = .retiring ∨ (∃ cause, st.state = .leaving .confirmed cause) →
        s.OnlyStation t i (some st') ∧ t.steer = s.steer ∧ t.nq = s.nq)

/-- R26, R117, R126, R137: a confirmation at a WAKING record removes the waking context, withdraws the record's
WAKE entries, appends the held frame as a HELD entry or sheds it when the emission queue is full, and
leaves the record LEAVING and CONFIRMED with a RESTORE placed. -/
def Obligations.WakingConfirmed : Prop :=
  ∀ (s : State) (c : Instr) (i : Slot) (st st' : Station) (jobs : List AckJob) (before after : List Presented)
    (cause : WakeCause) (held : Option (Fin 16)),
    s.ConfirmationEvent c i st st' jobs before after → st.state = .waking cause held →
    let rest : List Entry := s.emit.waiting.filter fun x => decide (x.kind ≠ .wake i st.address)
    let size : Nat := (if s.emit.sending.isSome = true then 1 else 0) + rest.length
    ∃ t, exec c s = .next t ∧ t.presented = before ++ after ∧ s.HandsAcks t jobs ∧ t.wake = tset s.wake i none ∧
      t.steer = s.steer.withRequest .restore i st ∧
      (held = none → s.OnlyStation t i (some { st' with state := .leaving .confirmed (some cause) }) ∧
        t.emit = { s.emit with waiting := rest } ∧ t.hold = s.hold) ∧
      (∀ b bytes, held = some b → s.hold[b.val] = .reserved bytes → size < 16 →
        s.OnlyStation t i (some { st' with state := .leaving .confirmed (some cause) }) ∧
        t.emit = { s.emit with waiting := rest ++ [{ kind := .held b, port := st.port, segment := st.segment }] } ∧
        t.hold = tset s.hold b (.queued bytes)) ∧
      (∀ b, held = some b → 16 ≤ size →
        s.OnlyStation t i (some { st' with
          state := .leaving .confirmed (some cause), framesShed := saturate16 st.framesShed }) ∧
        t.emit = { s.emit with waiting := rest } ∧ t.hold = tset s.hold b .free) ∧
      ({ t with presented := s.presented, resp := s.resp, stab := s.stab, steer := s.steer, wake := s.wake
                emit := s.emit, hold := s.hold } : State).withPinsOf s = s

/-- R29 to R33, R86 to R88: a new SLEEP announcement, by state, at a record it does not confirm first and at a
LAPSED record, which is confirmed and then asked from AWAKE: a refusal is acknowledged with its code, an
accepted request enters ENTERING with a DIVERT placed and its acknowledgement pending, and in ASLEEP the
lease is renewed. A repeated SLEEP is answered from the last acknowledgement, but in ENTERING or without one
it is dropped; a repeated AWAKE and an old announcement change nothing. -/
def Obligations.AnnouncementResult : Prop :=
  (∀ (s : State) (i : Slot) (st : Station) (q lease : Half) (before after : List Presented),
    s.Presents i st (.announcement .sleep q lease) before after → NewSequence st.lastSequence q →
    (∀ cause held, st.state ≠ .waking cause held) → (∀ cause, st.state ≠ .leaving .exhausted cause) →
    ∃ t, exec (.announcement i) s = .next t ∧ t.presented = before ++ after ∧
      ({ t with presented := s.presented, resp := s.resp, stab := s.stab, steer := s.steer, nq := s.nq } : State).withPinsOf s = s ∧
      (st.state = .awake ∨ st.state = .lapsed →
        (st.state = .awake → t.nq = s.nq) ∧
        (st.state = .lapsed → t.nq = s.nq.post
          { kind := .stationReturned, subject := some (i, s.generation i), detail := .none }) ∧
        (∀ code, (s.steer.mode ≠ .running ∧ code = .notRunning ∨
            s.steer.mode = .running ∧ s.steer.link ≠ .up ∧ code = .linkDown ∨
            s.steer.mode = .running ∧ s.steer.link = .up ∧ st.template = none ∧ code = .noTemplate) →
          s.OnlyStation t i (some { st with state := .awake, lastSequence := some q, lastAck := some (code, 0#16) }) ∧
          s.HandsAcks t [ackJobFor i st code q 0#16] ∧ t.steer = s.steer) ∧
        (s.steer.mode = .running → s.steer.link = .up → st.template ≠ none →
          s.OnlyStation t i (some { st with state := .entering (.announced q lease), lastSequence := some q }) ∧
          s.HandsAcks t [] ∧ t.steer = s.steer.withRequest .divert i st)) ∧
      ((∃ o, st.state = .entering o) →
        s.OnlyStation t i (some { st with state := .entering (.announced q lease), lastSequence := some q }) ∧
        s.HandsAcks t [] ∧ t.steer = s.steer ∧ t.nq = s.nq) ∧
      ((∃ l, st.state = .asleep l) →
        let effective := if lease = 0#16 then st.defaultLease else lease
        let renewed := if effective = 0#16 then none else some { remaining := effective, runOut := false }
        s.OnlyStation t i (some { st with
          state := .asleep renewed, lastSequence := some q, lastAck := some (.accepted, effective) }) ∧
        s.HandsAcks t [ackJobFor i st .accepted q effective] ∧ t.steer = s.steer ∧ t.nq = s.nq) ∧
      ∀ code, ((∃ cause, st.state = .leaving .confirmed cause) ∧ code = .inTransition ∨
          st.state = .retiring ∧ code = .retiring) →
        s.OnlyStation t i (some { st with lastSequence := some q, lastAck := some (code, 0#16) }) ∧
        s.HandsAcks t [ackJobFor i st code q 0#16] ∧ t.steer = s.steer ∧ t.nq = s.nq) ∧
  (∀ (s : State) (i : Slot) (st : Station) (op : AnnounceOp) (q lease last : Half) (before after : List Presented),
    s.Presents i st (.announcement op q lease) before after → st.lastSequence = some last →
    ∃ t, exec (.announcement i) s = .next t ∧ (¬ (1 ≤ (q - last).toNat ∧ (q - last).toNat ≤ 32767) →
      t.presented = before ++ after ∧ ({ t with presented := s.presented, resp := s.resp } : State).withPinsOf s = s ∧
      (∀ code granted, q = last → op = .sleep → (∀ o, st.state ≠ .entering o) → st.lastAck = some (code, granted) →
        s.HandsAcks t [ackJobFor i st code q granted]) ∧
      (q ≠ last ∨ op = .awake ∨ (∃ o, st.state = .entering o) ∨ st.lastAck = none → s.HandsAcks t [])))

/-- R37, R38, R112, R123, R124: a wake trigger from ICLS begins the waking of an ASLEEP record and holds the
frame it carries, or posts HOLD_UNAVAILABLE with no buffer free; at a WAKING record it is dropped and its
frame shed; in every other state its frame is passed through, or shed when the emission queue is full. That
WAKE_BEGUN is posted before HOLD_UNAVAILABLE is the model's choice (assumption log 15). -/
def Obligations.WakeTriggerResult : Prop :=
  ∀ (s : State) (i : Slot) (st : Station) (cause : WakeCause) (frame : Option (Fin 4)) (before after : List Presented),
    s.Presents i st (.trigger cause frame) before after →
    ∃ t, exec (.wakeTrigger i) s = .next t ∧ t.presented = before ++ after ∧
      ((∃ l, st.state = .asleep l) →
        (frame = none →
          s.BeginsWaking t i st cause none ∧ t.nq = s.nq.post (s.wakeBegunPost i cause) ∧
          ({ t with presented := s.presented, stab := s.stab, wake := s.wake, emit := s.emit, nq := s.nq } : State).withPinsOf s = s) ∧
        (∀ j f b, frame = some j → s.icls.slots[j.val] = .triggered f → s.hold[b.val] = .free →
          (∀ k < b, s.hold[k.val] ≠ .free) →
          s.BeginsWaking t i st cause (some b) ∧ t.hold = tset s.hold b (.reserved f.bytes) ∧
          t.icls = { s.icls with slots := tset s.icls.slots j .free } ∧ t.nq = s.nq.post (s.wakeBegunPost i cause) ∧
          ({ t with presented := s.presented, stab := s.stab, wake := s.wake, emit := s.emit, nq := s.nq
                    hold := s.hold, icls := s.icls } : State).withPinsOf s = s) ∧
        (∀ j n, frame = some j → cause = .rule n → (∀ b : Fin 16, s.hold[b.val] ≠ .free) →
          s.BeginsWaking t i st cause none ∧ t.icls = { s.icls with slots := tset s.icls.slots j .free } ∧
          t.nq = (s.nq.post (s.wakeBegunPost i cause)).post
            { kind := .holdUnavailable, subject := some (i, s.generation i), detail := .rule n } ∧
          ({ t with presented := s.presented, stab := s.stab, wake := s.wake, emit := s.emit, nq := s.nq
                    icls := s.icls } : State).withPinsOf s = s)) ∧
      ((∀ l, st.state ≠ .asleep l) → frame = none → ({ t with presented := s.presented } : State).withPinsOf s = s) ∧
      (∀ j f, (∀ l, st.state ≠ .asleep l) → (∀ k held, st.state ≠ .waking k held) → frame = some j →
        s.icls.slots[j.val] = .triggered f → s.emit.size < 16 →
        t.emit = { s.emit with waiting := s.emit.waiting ++ [{ kind := .pass j, port := st.port, segment := st.segment }] } ∧
        t.icls = { s.icls with slots := tset s.icls.slots j (.passing f) } ∧
        ({ t with presented := s.presented, emit := s.emit, icls := s.icls } : State).withPinsOf s = s) ∧
      ∀ j f, (∀ l, st.state ≠ .asleep l) → frame = some j → s.icls.slots[j.val] = .triggered f →
        ((∃ k held, st.state = .waking k held) ∨ 16 ≤ s.emit.size) →
        t.icls = { s.icls with slots := tset s.icls.slots j .free } ∧
        s.OnlyStation t i (some { st with framesShed := saturate16 st.framesShed }) ∧
        ({ t with presented := s.presented, stab := s.stab, icls := s.icls } : State).withPinsOf s = s

/-- R80, R93: the raise of the shed counter; and the void events of a record ICLS no longer matches: a sighting,
a raise and a trigger without a frame change nothing, a trigger's frame is discarded, and an announcement
is an unknown announcer's. -/
def Obligations.ShedAndVoidEvents : Prop :=
  (∀ (s : State) (i : Slot) (st : Station) (before after : List Presented), s.Presents i st .shed before after →
    ∃ t, exec (.shed i) s = .next t ∧ t.presented = before ++ after ∧
      s.OnlyStation t i (some { st with framesShed := saturate16 st.framesShed }) ∧
      ({ t with presented := s.presented, stab := s.stab } : State).withPinsOf s = s) ∧
  ∀ (s : State) (i : Slot) (a : Address) (kind : PresentedKind) (before after : List Presented),
    s.PresentsFor i a kind before after → (∀ st, s.station i = some st → st.address ≠ a) →
    ∃ t, exec (match kind with
        | .sighting => .sighting i
        | .announcement _ _ _ => .announcement i
        | .trigger _ _ => .wakeTrigger i
        | .shed => .shed i) s = .next t ∧ t.presented = before ++ after ∧
      t.icls = (match kind with
        | .trigger _ (some j) => { s.icls with slots := tset s.icls.slots j .free }
        | _ => s.icls) ∧
      t.nq = (match kind with
        | .announcement _ _ _ => s.nq.post { kind := .unknownAnnouncer, subject := none, detail := .address a }
        | _ => s.nq) ∧
      ({ t with presented := s.presented, icls := s.icls, nq := s.nq } : State).withPinsOf s = s

/-! ### Time -/

/-- R24, R39: a boundary of the seconds time base lowers the lease of every ASLEEP record, and the one at which
it would reach 0 makes its expiry due; a due expiry begins the waking with cause LEASE. `n` boundaries may
pass up to the expiry (the model's choice, assumption logs 5 and 7). -/
def Obligations.LeaseTime : Prop :=
  (∀ (s : State) (n : Nat) (i : Slot), s.generation i = (s.passSeconds n).generation i ∧
    (s.station i = none → (s.passSeconds n).station i = none) ∧
    ∀ st, s.station i = some st →
      (∀ l, st.state = .asleep (some l) → (s.passSeconds n).station i = some { st with state := .asleep (some
        (if n < l.remaining.toNat then { l with remaining := l.remaining - BitVec.ofNat 16 n }
         else { remaining := 1#16, runOut := true })) }) ∧
      ((∀ l, st.state ≠ .asleep (some l)) → (s.passSeconds n).station i = some st)) ∧
  (∀ s : State, ∃ t, exec .leaseSecondBoundary s = .next t ∧ t.stab = (s.passSeconds 1).stab ∧
    ({ t with stab := s.stab } : State).withPinsOf s = s) ∧
  ∀ (s : State) (i : Slot) (n : Nat), ∃ t, exec (.leaseExpiry i n) s = .next t ∧
    (∀ st l, s.station i = some st → st.state = .asleep (some l) → l.runOut = true ∨ l.remaining.toNat ≤ n →
      (s.passSeconds n).BeginsWaking t i st .lease none ∧ t.nq = s.nq.post (s.wakeBegunPost i .lease) ∧
      ({ t with stab := s.stab, wake := s.wake, emit := s.emit, nq := s.nq } : State).withPinsOf s = s) ∧
    ((∀ st l, s.station i = some st → st.state = .asleep (some l) → l.runOut = false ∧ n < l.remaining.toNat) →
      t.stab = (s.passSeconds n).stab ∧ ({ t with stab := s.stab } : State).withPinsOf s = s)

/-- R113 to R116, R40, R127, R137: the interval timer of every waking context is lowered by the boundaries that
pass; one that has run out gives a further attempt, skipped when the emission queue is full, and a restart,
or, at the attempt limit, the exhaustion. `n` boundaries may pass up to the expiry, and a timer that has run out stays
at 0 until its expiry is taken (the model's choices, assumption logs 5 and 8). -/
def Obligations.IntervalExpiryResult : Prop :=
  ∀ (s : State) (i : Slot) (n : Nat), ∃ t, exec (.intervalExpiry i n) s = .next t ∧
    (∀ k : Slot, k ≠ i → t.wake[k.val] = s.wake[k.val].map fun c => { c with remaining := c.remaining - n }) ∧
    ((∀ c, s.wake[i.val] = some c → n < c.remaining) →
      t.wake[i.val] = s.wake[i.val].map (fun c => { c with remaining := c.remaining - n }) ∧
      ({ t with wake := s.wake } : State).withPinsOf s = s) ∧
    ∀ c st cause held, s.wake[i.val] = some c → c.remaining ≤ n → s.station i = some st → c.address = st.address →
      st.state = .waking cause held →
      (st.wakeAttempts < s.mport.settings.wakeAttemptLimit.toNat →
        t.wake[i.val] = some { address := st.address, remaining := s.mport.settings.wakeInterval.toNat } ∧
        t.emit = s.emit.joined { kind := .wake i st.address, port := st.port, segment := st.segment } ∧
        s.OnlyStation t i (some { st with
          wakeAttempts := if s.emit.size < 16 then st.wakeAttempts + 1 else st.wakeAttempts }) ∧
        ({ t with wake := s.wake, emit := s.emit, stab := s.stab } : State).withPinsOf s = s) ∧
      (s.mport.settings.wakeAttemptLimit.toNat ≤ st.wakeAttempts →
        t.wake[i.val] = none ∧
        t.emit = { s.emit with waiting := s.emit.waiting.filter fun x => decide (x.kind ≠ .wake i st.address) } ∧
        (∀ b : Fin 16, t.hold[b.val] = if held = some b then .free else s.hold[b.val]) ∧
        s.OnlyStation t i (some { st with state := .leaving .exhausted (some cause) }) ∧
        t.steer = s.steer.withRequest .restore i st ∧
        t.nq = s.nq.post { kind := .wakeFailed, subject := some (i, s.generation i), detail := .cause cause } ∧
        ({ t with wake := s.wake, emit := s.emit, hold := s.hold, stab := s.stab, steer := s.steer
                  nq := s.nq } : State).withPinsOf s = s)

/-- R153, R154, R161, R196: the milliseconds that pass raise the age of every notice, stopping at 255, and lower the
ack timer; a timer that has run out repeats the request with its own sequence, or, with its retries used,
leaves the link DOWN, and in STOPPING ends the stop; STEER_LINK_DOWN is posted. `n` boundaries may pass up
to the timeout or a holdoff; a timer that has run out stays at 0 until its timeout is taken; in STOPPING MODE_CHANGED
is posted first (the model's choices, assumption logs 5, 6, 8 and 15). -/
def Obligations.MillisecondTime : Prop :=
  (∀ (s : State) (n : Nat),
    let aged : Nq := { s.nq with queue := s.nq.queue.map fun x => { x with age := BitVec.ofNat 8 (min 255 (x.age.toNat + n)) } }
    ∃ t, exec (.ackTimeout n) s = .next t ∧
      ({ t with steer := s.steer, nq := s.nq, out := s.out } : State).withPinsOf s = s ∧
      (s.steer.inFlight = none ∨ s.steer.ackTimer = none ∨ (∃ k, s.steer.ackTimer = some k ∧ n < k) →
        t.steer = { s.steer with ackTimer := s.steer.ackTimer.map (· - n) } ∧ t.nq = aged ∧ t.out = s.out) ∧
      ∀ f k, s.steer.inFlight = some f → s.steer.ackTimer = some k → k ≤ n →
        (f.retries < s.mport.settings.steerRetryLimit.toNat →
          t.steer = { s.steer with inFlight := some { f with retries := f.retries + 1 }
                                   ackTimer := some s.mport.settings.steerAckTimeout.toNat } ∧
          t.nq = aged ∧ t.out = s.out.beginMessage (requestMessage f.body f.sequence)) ∧
        (s.mport.settings.steerRetryLimit.toNat ≤ f.retries → s.steer.mode ≠ .stopping →
          t.steer = { s.steer with link := .down, ackTimer := none } ∧ t.out = s.out ∧
          t.nq = aged.post { kind := .steerLinkDown, subject := none, detail := .request f.body.kind f.sequence }) ∧
        (s.mport.settings.steerRetryLimit.toNat ≤ f.retries → s.steer.mode = .stopping →
          t.steer = { s.steer with
            mode := .stopped, link := .idle, inFlight := none, ackTimer := none, deferredStart := s.mport.run } ∧
          t.out = s.out ∧
          t.nq = (aged.post { kind := .modeChanged, subject := none, detail := .mode .stopped }).post
            { kind := .steerLinkDown, subject := none, detail := .request f.body.kind f.sequence })) ∧
  (∀ (s : State) (c : Instr) (n : Nat), (c = .ageBoundary ∧ n = 1 ∨ c = .noticeHoldoff n) →
    ∃ t, exec c s = .next t ∧
      t.nq = { s.nq with queue := s.nq.queue.map fun x => { x with age := BitVec.ofNat 8 (min 255 (x.age.toNat + n)) } } ∧
      t.steer = { s.steer with ackTimer := s.steer.ackTimer.map (· - n) } ∧
      ({ t with nq := s.nq, steer := s.steer } : State).withPinsOf s = s)

/-! ### Frames out -/

/-- R102 to R105, R144, R145: the frames RESP builds have 60 bytes, zeros after their fields; a REPLY's op is 2, a
PROBE_REPLY's 4, a SLEEP_ACK's 3; the proxied indication is set with the state code. A steering message has
16 bytes that add up to 255 modulo 256, with the kind, the sequence and the fields of the request; what is
taken from the line is an ACK or NAK whose 16 bytes add up so. -/
def Obligations.WireFormats : Prop :=
  ((∀ (job : AnswerJob) (type : Half) (op code : Byte) (a b : Identifier),
    (answerFrame job type op code a b).length = 60 ∧ frameDestination (answerFrame job type op code a b) = job.sender ∧
    frameSource (answerFrame job type op code a b) = job.address ∧ frameType (answerFrame job type op code a b) = type ∧
    byteAt (answerFrame job type op code a b) 14 = op ∧ byteAt (answerFrame job type op code a b) 15 = 0x80#8 ||| code ∧
    fieldAt (answerFrame job type op code a b) 16 6 = job.address.toNat ∧
    fieldAt (answerFrame job type op code a b) 22 4 = a.toNat ∧ fieldAt (answerFrame job type op code a b) 26 4 = b.toNat ∧
    ∀ k, 30 ≤ k → byteAt (answerFrame job type op code a b) k = 0#8) ∧
  (∀ (job : AckJob) (part : Address) (type : Half),
    (sleepAckFrame job part type).length = 60 ∧ frameDestination (sleepAckFrame job part type) = job.address ∧
    frameSource (sleepAckFrame job part type) = part ∧ frameType (sleepAckFrame job part type) = type ∧
    byteAt (sleepAckFrame job part type) 14 = 3#8 ∧ byteAt (sleepAckFrame job part type) 15 = job.code.number ∧
    fieldAt (sleepAckFrame job part type) 16 2 = job.sequence.toNat ∧
    fieldAt (sleepAckFrame job part type) 18 2 = job.granted.toNat ∧
    ∀ k, 20 ≤ k → byteAt (sleepAckFrame job part type) k = 0#8) ∧
  ∀ (job : AnswerJob) (st : Station) (type : Half) (code : Byte),
    (∀ target, job.kind = .reply target →
      answerBytes job st type code = answerFrame job type 2#8 code target job.senderIdentifier) ∧
    (job.kind = .probeReply →
      (st.identifiers = [] → answerBytes job st type code = answerFrame job type 4#8 code 0#32 job.senderIdentifier) ∧
      ∀ l rest, st.identifiers = l :: rest →
        answerBytes job st type code = answerFrame job type 4#8 code l.identifier job.senderIdentifier)) ∧
  ((∀ (body : RequestBody) (q : BitVec 4), (requestMessage body q).length = 16 ∧
    ((requestMessage body q).map (·.toNat)).sum % 256 = 255 ∧ fieldAt (requestMessage body q) 1 1 = q.toNat ∧
    (body = .clearAll → byteAt (requestMessage body q) 0 = 3#8 ∧ ∀ k, 2 ≤ k → k < 15 → byteAt (requestMessage body q) k = 0#8) ∧
    ∀ r, body = .station r →
      byteAt (requestMessage body q) 0 = (match r.kind with
        | .divert => 1#8
        | .restore => 2#8) ∧
      fieldAt (requestMessage body q) 2 6 = r.address.toNat ∧ fieldAt (requestMessage body q) 8 2 = r.segment.toNat ∧
      fieldAt (requestMessage body q) 10 1 = (match r.kind with
        | .divert => 0
        | .restore => r.port.toNat) ∧
      ∀ k, 11 ≤ k → k < 15 → byteAt (requestMessage body q) k = 0#8) ∧
  ∀ (run : List Byte) (q : Byte),
    (decodeAnswer run = some (.ack q) ↔ 16 ≤ run.length ∧ ((run.take 16).map (·.toNat)).sum % 256 = 255 ∧
      byteAt run 0 = 8#8 ∧ byteAt run 1 = q) ∧
    ∀ reason, decodeAnswer run = some (.nak q reason) ↔ 16 ≤ run.length ∧
      ((run.take 16).map (·.toNat)).sum % 256 = 255 ∧ byteAt run 0 = 9#8 ∧ byteAt run 1 = q ∧
      byteAt run 11 = (match reason with
        | .full => 1#8
        | .unknown => 2#8
        | .malformed => 3#8))

/-- R97 to R101, R104, R106: an answer job of a record still matched and ASLEEP (1) or WAKING (2) takes the lowest
FREE buffer and a place of the emission queue and raises the answers sent; with either lacking it is dropped
with ANSWER_DROPPED; a void or lapsed job does nothing. A SLEEP_ACK job takes a buffer and a place, or is
dropped: for want of one, or because AnnounceType or PartAddress is zero. -/
def Obligations.AnswerJobsResult : Prop :=
  (∀ (s : State) (c : Instr) (job : AnswerJob) (rest : List AnswerJob), s.resp.answerJobs = job :: rest →
    (c = .replyJob ∧ (∃ target, job.kind = .reply target) ∨ c = .probeReplyJob ∧ job.kind = .probeReply) →
    ∃ t, exec c s = .next t ∧ t.resp.answerJobs = rest ∧ t.resp.ackJobs = s.resp.ackJobs ∧
      ((∀ st, s.station job.slot = some st → st.address = job.address →
          (∀ l, st.state ≠ .asleep l) ∧ ∀ cause held, st.state ≠ .waking cause held) →
        t.resp.buffers = s.resp.buffers ∧ ({ t with resp := s.resp } : State).withPinsOf s = s) ∧
      ∀ st code, s.station job.slot = some st → st.address = job.address →
        ((∃ l, st.state = .asleep l) ∧ code = 1#8 ∨ (∃ cause held, st.state = .waking cause held) ∧ code = 2#8) →
        ((∀ b : Fin 8, s.resp.buffers[b.val] ≠ none) →
          t.resp.buffers = s.resp.buffers ∧
          t.nq = s.nq.post { kind := .answerDropped, subject := none, detail := .drop job.kind.dropped .noBuffer } ∧
          ({ t with resp := s.resp, nq := s.nq } : State).withPinsOf s = s) ∧
        (∀ b : Fin 8, s.resp.buffers[b.val] = none → 16 ≤ s.emit.size →
          t.resp.buffers = s.resp.buffers ∧
          t.nq = s.nq.post { kind := .answerDropped, subject := none, detail := .drop job.kind.dropped .noPlace } ∧
          ({ t with resp := s.resp, nq := s.nq } : State).withPinsOf s = s) ∧
        (∀ b : Fin 8, s.resp.buffers[b.val] = none → (∀ k < b, s.resp.buffers[k.val] ≠ none) → s.emit.size < 16 →
          t.resp.buffers = tset s.resp.buffers b (some (answerBytes job st s.mport.settings.queryType code)) ∧
          t.emit = { s.emit with waiting := s.emit.waiting ++
            [{ kind := .answer b, port := job.port, segment := job.segment }] } ∧
          s.OnlyStation t job.slot (some { st with answersSent := saturate16 st.answersSent }) ∧
          ({ t with resp := s.resp, emit := s.emit, stab := s.stab } : State).withPinsOf s = s)) ∧
  (∀ (s : State) (job : AckJob) (rest : List AckJob), s.resp.ackJobs = job :: rest →
    ∃ t, exec .sleepAckJob s = .next t ∧ t.resp.ackJobs = rest ∧ t.resp.answerJobs = s.resp.answerJobs ∧
      (∀ why, (s.mport.settings.announceType = 0#16 ∨ s.mport.settings.partAddress = 0#48) ∧ why = .unconfigured ∨
          s.mport.settings.announceType ≠ 0#16 ∧ s.mport.settings.partAddress ≠ 0#48 ∧
            (∀ b : Fin 8, s.resp.buffers[b.val] ≠ none) ∧ why = .noBuffer ∨
          s.mport.settings.announceType ≠ 0#16 ∧ s.mport.settings.partAddress ≠ 0#48 ∧
            (∃ b : Fin 8, s.resp.buffers[b.val] = none) ∧ 16 ≤ s.emit.size ∧ why = .noPlace →
        t.resp.buffers = s.resp.buffers ∧
        t.nq = s.nq.post { kind := .answerDropped, subject := none, detail := .drop .sleepAck why } ∧
        ({ t with resp := s.resp, nq := s.nq } : State).withPinsOf s = s) ∧
      ∀ b : Fin 8, s.mport.settings.announceType ≠ 0#16 → s.mport.settings.partAddress ≠ 0#48 →
        s.resp.buffers[b.val] = none → (∀ k < b, s.resp.buffers[k.val] ≠ none) → s.emit.size < 16 →
        t.resp.buffers = tset s.resp.buffers b
          (some (sleepAckFrame job s.mport.settings.partAddress s.mport.settings.announceType)) ∧
        t.emit = { s.emit with waiting := s.emit.waiting ++
          [{ kind := .answer b, port := job.port, segment := job.segment }] } ∧
        ({ t with resp := s.resp, emit := s.emit } : State).withPinsOf s = s)

/-- R132, R134 to R136: with nothing SENDING the head entry begins with the bytes its resource then holds, or,
for a WAKE entry whose record is gone or holds no template, leaves unsent; at completion the entry leaves
and its resource is freed. R207: on the wire the frame bytes follow the emission tag, the egress port and the segment
in two bytes. The row stands for a begin with ERDY asserted (assumption log 23). -/
def Obligations.TransmissionResult : Prop :=
  (∀ w : Transfer, fieldAt w.wire 0 1 = w.port.toNat ∧ fieldAt w.wire 1 2 = w.segment.toNat ∧ w.wire.drop 3 = w.bytes) ∧
  (∀ (s : State) (x : Entry) (rest : List Entry), s.emit.sending = none → s.emit.waiting = x :: rest →
    ∃ t, exec .transmissionBegin s = .next t ∧ ({ t with emit := s.emit } : State).withPinsOf s = s ∧
      (∀ bytes, (∃ b, x.kind = .answer b ∧ s.resp.buffers[b.val] = some bytes) ∨
          (∃ i st, x.kind = .wake i st.address ∧ s.station i = some st ∧ st.template = some bytes) ∨
          (∃ b, x.kind = .held b ∧ s.hold[b.val] = .queued bytes) ∨
          (∃ j f, x.kind = .pass j ∧ s.icls.slots[j.val] = .passing f ∧ f.bytes = bytes) →
        t.emit = { sending := some (x, { port := x.port, segment := x.segment, bytes := bytes }), waiting := rest }) ∧
      ∀ i a, x.kind = .wake i a → (∀ st, s.station i = some st → st.address = a → st.template = none) →
        t.emit = { sending := none, waiting := rest }) ∧
  ∀ (s : State) (x : Entry) (w : Transfer), s.emit.sending = some (x, w) →
    ∃ t, exec .transmissionCompletion s = .next t ∧ t.emit = { s.emit with sending := none } ∧
      t.out = { s.out with emitted := s.out.emitted ++ [(w, .complete)] } ∧
      (∀ b : Fin 8, t.resp.buffers[b.val] = if x.kind = .answer b then none else s.resp.buffers[b.val]) ∧
      (∀ b : Fin 16, t.hold[b.val] = if x.kind = .held b then .free else s.hold[b.val]) ∧
      (∀ j : Fin 4, t.icls.slots[j.val] = if x.kind = .pass j then .free else s.icls.slots[j.val]) ∧
      ({ t with emit := s.emit, out := s.out, hold := s.hold
                resp := { t.resp with buffers := s.resp.buffers }
                icls := { t.icls with slots := s.icls.slots } } : State).withPinsOf s = s

/-! ### Steering -/

/-- R150, R146, R144: with the mode RUNNING, the link UP and nothing in flight the head of the queue is sent with the
counter's sequence, and the ack timer starts: the message begins on LTXD, and one begun before it has gone whole
(assumption log 19). Else nothing is sent: the row changes nothing (the model's choice, assumption log 2). -/
def Obligations.SteerSendResult : Prop :=
  (∀ (s : State) (r : SteerRequest) (rest : List SteerRequest), s.steer.queue = r :: rest → s.steer.mode = .running →
    s.steer.link = .up → s.steer.inFlight = none →
    ∃ t, exec .steerSend s = .next t ∧
      t.steer = { s.steer with
        queue := rest, sequence := s.steer.sequence + 1#4
        inFlight := some { body := .station r, sequence := s.steer.sequence, retries := 0 }
        ackTimer := some s.mport.settings.steerAckTimeout.toNat } ∧
      t.out = s.out.beginMessage (requestMessage (.station r) s.steer.sequence) ∧
      ({ t with steer := s.steer, out := s.out } : State).withPinsOf s = s) ∧
  (∀ (o : Outputs) (m : List Byte), o.beginMessage m = { o with
    sending := some m, steered := o.steered ++ (o.sending.map fun x => (x, MessageEnd.whole)).toList }) ∧
  ∀ s : State, (s.steer.queue = [] ∨ s.steer.mode ≠ .running ∨ s.steer.link ≠ .up ∨ s.steer.inFlight ≠ none) →
    ∃ t, exec .steerSend s = .next t ∧ t.withPinsOf s = s

/-- R34, R35, R152: the ACK of a DIVERT puts an ENTERING record to sleep with its effective lease, the SLEEP_ACK
when one is pending, and STATION_ASLEEP; the NAK returns it to AWAKE with STEER_REFUSED, and takes a LEAVING
record back with the RESTORE behind it. The ACK leaves a LEAVING record to its RESTORE. The part's own message has had
the time to end (assumption log 19). -/
def Obligations.DivertOutcome : Prop :=
  (∀ (s : State) (f : InFlight) (r : SteerRequest) (run : List Byte) (q : Byte) (st : Station),
    s.AnswersRequest f q → f.body = .station r → r.kind = .divert → decodeAnswer run = some (.ack q) →
    s.station r.slot = some st →
    ∃ t, exec (.ack run) s = .next t ∧ t.steer = { s.steer with inFlight := none, ackTimer := none } ∧
      t.out = s.out.endMessage .whole ∧
      ({ t with steer := s.steer, stab := s.stab, resp := s.resp, nq := s.nq, out := s.out } : State).withPinsOf s = s ∧
      (∀ origin requested, st.state = .entering origin →
        ((∃ q', origin = .announced q' requested) ∨ origin = .commanded requested) →
        let effective := if requested = 0#16 then st.defaultLease else requested
        let lease := if effective = 0#16 then none else some { remaining := effective, runOut := false }
        t.nq = s.nq.post { kind := .stationAsleep, subject := some (r.slot, s.generation r.slot), detail := .lease effective } ∧
        (∀ q', origin = .announced q' requested →
          s.OnlyStation t r.slot (some { st with state := .asleep lease, lastAck := some (.accepted, effective) }) ∧
          s.HandsAcks t [ackJobFor r.slot st .accepted q' effective]) ∧
        (origin = .commanded requested →
          s.OnlyStation t r.slot (some { st with state := .asleep lease }) ∧ s.HandsAcks t [])) ∧
      ((∃ reason cause, st.state = .leaving reason cause) → t.stab = s.stab ∧ t.resp = s.resp ∧ t.nq = s.nq)) ∧
  ∀ (s : State) (f : InFlight) (r : SteerRequest) (run : List Byte) (q : Byte) (why : NakReason) (st : Station),
    s.AnswersRequest f q → f.body = .station r → r.kind = .divert → decodeAnswer run = some (.nak q why) →
    s.station r.slot = some st →
    ∃ t, exec (.nak run) s = .next t ∧
      t.steer = { s.steer with
        inFlight := none, ackTimer := none, queue := s.steer.queue.eraseP fun x => x.isFor .restore r.slot } ∧
      t.out = s.out.endMessage .whole ∧
      ({ t with steer := s.steer, stab := s.stab, resp := s.resp, nq := s.nq, out := s.out } : State).withPinsOf s = s ∧
      ((∃ o, st.state = .entering o) ∨ (∃ reason cause, st.state = .leaving reason cause) →
        t.nq = s.nq.post { kind := .steerRefused, subject := some (r.slot, s.generation r.slot), detail := .refusal .divert why }) ∧
      (∀ q' lease, st.state = .entering (.announced q' lease) →
        s.OnlyStation t r.slot (some { st with state := .awake, lastAck := some (.steerRefused, 0#16) }) ∧
        s.HandsAcks t [ackJobFor r.slot st .steerRefused q' 0#16]) ∧
      ((∃ lease, st.state = .entering (.commanded lease)) ∨ (∃ reason cause, st.state = .leaving reason cause) →
        s.OnlyStation t r.slot (some { st with state := .awake }) ∧ s.HandsAcks t [])

/-- R36, R23, R152: the ACK or NAK of a RESTORE ends the diversion: a confirmed LEAVING record becomes AWAKE with
STATION_RETURNED, an exhausted one LAPSED, a RETIRING one VACANT; a NAK also posts STEER_REFUSED, after the
outcome's own notice and with the generation before it (the model's choice, assumption log 15). The part's own message
has had the time to end (assumption log 19). -/
def Obligations.RestoreOutcome : Prop :=
  ∀ (s : State) (f : InFlight) (r : SteerRequest) (c : Instr) (run : List Byte) (q : Byte) (v : Verdict) (st : Station),
    s.AnswersRequest f q → f.body = .station r → r.kind = .restore →
    (c = .ack run ∧ decodeAnswer run = some (.ack q) ∧ v = .ack ∨
      ∃ why, c = .nak run ∧ decodeAnswer run = some (.nak q why) ∧ v = .nak why) →
    s.station r.slot = some st →
    let refused (n : Nq) : Nq := match v with
      | .ack => n
      | .nak why => n.post { kind := .steerRefused, subject := some (r.slot, s.generation r.slot), detail := .refusal .restore why }
    ∃ t, exec c s = .next t ∧ t.steer = { s.steer with inFlight := none, ackTimer := none } ∧
      t.out = s.out.endMessage .whole ∧
      ((∃ cause, st.state = .leaving .confirmed cause) →
        s.OnlyStation t r.slot (some { st with state := .awake }) ∧
        t.nq = refused (s.nq.post
          { kind := .stationReturned, subject := some (r.slot, s.generation r.slot), detail := .none }) ∧
        ({ t with steer := s.steer, stab := s.stab, nq := s.nq, out := s.out } : State).withPinsOf s = s) ∧
      ((∃ cause, st.state = .leaving .exhausted cause) →
        s.OnlyStation t r.slot (some { st with state := .lapsed }) ∧ t.nq = refused s.nq ∧
        ({ t with steer := s.steer, stab := s.stab, nq := s.nq, out := s.out } : State).withPinsOf s = s) ∧
      (st.state = .retiring →
        (∀ j, t.station j = if j = r.slot then none else s.station j) ∧
        (∀ j, t.generation j = if j = r.slot then s.generation j + 1#8 else s.generation j) ∧
        t.idmap = s.idmap.filter (fun e =>
          decide (¬ (e.segment = st.segment ∧ ∃ l ∈ st.identifiers, l.identifier = e.identifier))) ∧
        (st.rules.Nodup → ∀ n : RuleNumber, t.rstore[n.val] = { s.rstore[n.val] with
          refCount := if n ∈ st.rules then s.rstore[n.val].refCount - 1 else s.rstore[n.val].refCount }) ∧
        t.nq = refused (s.nq.post
          { kind := .stationRetired, subject := some (r.slot, s.generation r.slot), detail := .none }) ∧
        ({ t with steer := s.steer, stab := s.stab, idmap := s.idmap, rstore := s.rstore, nq := s.nq, out := s.out } : State).withPinsOf s = s)

/-- R145, R151, R158, R161, R208: a matching ACK or NAK of a CLEAR_ALL ends STARTING in RUNNING and STOPPING in
STOPPED with the link IDLE, posts MODE_CHANGED, and makes a start due when RUN reads 1. An answer that matches
no request in flight, one that arrives before the receiver has its footing, a message that is not valid, and
an idle line give the receiver its footing and change nothing else. The row of a run of bytes includes the
idle time after it, in which the part's own message has ended (the model's choices, assumption logs 18 and 19). -/
def Obligations.ClearAllAndDiscarded : Prop :=
  (∀ (s : State) (f : InFlight) (c : Instr) (run : List Byte) (q : Byte), s.AnswersRequest f q → f.body = .clearAll →
    (c = .ack run ∧ decodeAnswer run = some (.ack q) ∨ ∃ why, c = .nak run ∧ decodeAnswer run = some (.nak q why)) →
    ∃ t, exec c s = .next t ∧ t.out = s.out.endMessage .whole ∧
      ({ t with steer := s.steer, nq := s.nq, out := s.out } : State).withPinsOf s = s ∧
      (s.steer.mode = .starting →
        t.steer = { s.steer with mode := .running, inFlight := none, ackTimer := none } ∧
        t.nq = s.nq.post { kind := .modeChanged, subject := none, detail := .mode .running }) ∧
      (s.steer.mode = .stopping →
        t.steer = { s.steer with
          mode := .stopped, link := .idle, inFlight := none, ackTimer := none, deferredStart := s.mport.run } ∧
        t.nq = s.nq.post { kind := .modeChanged, subject := none, detail := .mode .stopped })) ∧
  (∀ (s : State) (c : Instr) (run : List Byte),
    (c = .lineIdle ∨ c = .steerMessageDiscarded run ∨
      (c = .ack run ∨ c = .nak run) ∧ (s.steer.footing = false ∨ decodeAnswer run = none ∨
        ∀ f q, s.AnswersRequest f q → decodeAnswer run ≠ some (.ack q) ∧ ∀ why, decodeAnswer run ≠ some (.nak q why))) →
    ∃ t, exec c s = .next t ∧ t.steer = { s.steer with footing := true } ∧
      t.out = (if c = .lineIdle then s.out else s.out.endMessage .whole) ∧
      ({ t with steer := s.steer, out := s.out } : State).withPinsOf s = s) ∧
  ∀ (o : Outputs) (e : MessageEnd), o.endMessage e =
    { o with sending := none, steered := o.steered ++ (o.sending.map fun m => (m, e)).toList }

/-! ### Notices -/

/-- R188 to R191: a post folds into the notice with its key, or joins at the tail with the next stamp; in a full
queue it evicts the newest notice of the least urgent class present when its own is more urgent, or is
dropped, and NOTICE_OVERRUN is set. -/
def Obligations.NoticePost : Prop :=
  ∀ (q : Nq) (p : Post), q.WellFormed →
    let joined (queue : List Notice) : List Notice := queue ++
      [{ kind := p.kind, subject := p.subject, detail := p.detail, repeatCount := 1#8, stamp := q.stamp, age := 0#8 }]
    (∀ before n after, q.queue = before ++ n :: after → n.kind = p.kind → n.subject.map (·.1) = p.subject.map (·.1) →
      q.post p = { q with queue := before ++ { n with
        subject := p.subject, detail := p.detail, repeatCount := BitVec.ofNat 8 (min 255 (n.repeatCount.toNat + 1)) } :: after }) ∧
    ((∀ n ∈ q.queue, n.kind = p.kind → n.subject.map (·.1) ≠ p.subject.map (·.1)) →
      (q.queue.length < 32 → q.post p = { q with queue := joined q.queue, stamp := q.stamp + 1#16 }) ∧
      (q.queue.length = 32 →
        (∀ before n after, q.queue = before ++ n :: after → (∀ m ∈ q.queue, n.noticeClass.rank ≤ m.noticeClass.rank) →
          (∀ m ∈ after, m.noticeClass ≠ n.noticeClass) → n.noticeClass.rank < p.kind.noticeClass.rank →
          q.post p = { queue := joined (before ++ after), stamp := q.stamp + 1#16, overrun := true }) ∧
        ((∀ m ∈ q.queue, p.kind.noticeClass.rank ≤ m.noticeClass.rank) → q.post p = { q with overrun := true })))

/-! ### What every command keeps -/

/-- R188: at most 32 notices wait, no two with one key, each standing for at least one post. -/
def Obligations.NoticesKept : Prop :=
  ∀ (c : Instr) (s t : State), s.nq.WellFormed → exec c s = .next t → t.nq.WellFormed

/-- R96, R131: at most 16 entries wait for emission, and the answer buffers in use are those of the ANSWER
entries, one each. -/
def Obligations.AnswersKept : Prop :=
  ∀ (c : Instr) (s t : State), AnswersMatch s.emit s.resp.buffers → exec c s = .next t → AnswersMatch t.emit t.resp.buffers

/-- R122: every RESERVED held buffer is named by one WAKING record, every QUEUED one by one HELD entry. -/
def Obligations.HeldBuffersKept : Prop :=
  ∀ (c : Instr) (s t : State), s.HoldMatches → exec c s = .next t → t.HoldMatches

/-- R76, R77: every occupied intake slot has its one use: a transfer, a place in arrival order, a presented
trigger or a PASS entry. -/
def Obligations.IntakeSlotsKept : Prop :=
  ∀ (c : Instr) (s t : State), SlotsMatch s.icls s.presented s.emit → exec c s = .next t →
    SlotsMatch t.icls t.presented t.emit

/-- R111: a slot has a waking context exactly while its record is WAKING, with the record's address. -/
def Obligations.WakingContextsKept : Prop :=
  ∀ (c : Instr) (s t : State), s.ContextsMatch → exec c s = .next t → t.ContextsMatch

/-- R47, R48, R51 to R57: the map holds at most 256 entries, one for each key, and exactly those the records
list. -/
def Obligations.IdentifierMapKept : Prop :=
  ∀ (c : Instr) (s t : State), s.MapMatches → exec c s = .next t → t.MapMatches

/-- R66: the reference count of every rule is the number of non-VACANT records that list it, and a listed rule is
DEFINED: every command keeps this. -/
def Obligations.RuleCountsKept : Prop :=
  ∀ (c : Instr) (s t : State), s.CountsMatch → exec c s = .next t → t.CountsMatch

/-- R4: no address is held twice, and each is unicast, not all zero and not PartAddress. It is kept together with what
the checks of a latched command have found (R169, R174): without that an event could enrol what they refuse. -/
def Obligations.AddressesKept : Prop :=
  ∀ (c : Instr) (s t : State), s.AddressesUnique → s.ChecksPassed → exec c s = .next t →
    t.AddressesUnique ∧ t.ChecksPassed

/-- R5 to R8, R60, R113, Table 12-3: every configuration value lies in its range, every enrolled record holds what its
state calls for, every template has 60 to 128 bytes, and the span list of every DEFINED rule is valid. It is kept
together with what the checks of a latched command have found (R169, R175, R183). -/
def Obligations.StationsKept : Prop :=
  ∀ (c : Instr) (s t : State), s.StationsWellFormed → s.RulesValid → s.ChecksPassed → exec c s = .next t →
    t.StationsWellFormed ∧ t.RulesValid ∧ t.ChecksPassed

/-- R22, R147, R159, Table 2-1: the mode, the link, the queue, the request in flight and the states of the
records agree. -/
def Obligations.SteeringKept : Prop :=
  ∀ (c : Instr) (s t : State), s.SteeringMatches → exec c s = .next t → t.SteeringMatches

/-- R166, R200: the command area, the result area and the latched command stay within their 256 bytes. The canonical
form they stay in, rising offsets and no byte 0 held, is the model's own way to hold an area (assumption log 24). -/
def Obligations.AreasKept : Prop :=
  ∀ (c : Instr) (s t : State), s.AreasFit → exec c s = .next t → t.AreasFit
end

