-- ==== Sys2Proof/Laws/State.lean ====
section
/-! SUPPORT. What each update of State leaves and what it writes: one lemma for each field of each update, all true by rfl. -/

namespace Sys2Proof.Machine

@[simp] theorem State.setRecord_stab (s : State) (i : Slot) (r : Record) : (s.setRecord i r).stab = tset s.stab i r := (rfl)
@[simp] theorem State.setStation_stab (s : State) (i : Slot) (st : Station) :
    (s.setStation i st).stab = tset s.stab i { generation := s.generation i, station := some st } := (rfl)
@[simp] theorem State.post_nq (s : State) (k : NoticeKind) (d : Detail) :
    (s.post k d).nq = s.nq.post { kind := k, subject := none, detail := d } := (rfl)
@[simp] theorem State.postFor_nq (s : State) (i : Slot) (k : NoticeKind) (d : Detail) :
    (s.postFor i k d).nq = s.nq.post { kind := k, subject := some (i, s.generation i), detail := d } := (rfl)
@[simp] theorem State.withdrawWakes_emit (s : State) (i : Slot) (a : Address) :
    (s.withdrawWakes i a).emit = s.emit.withdraw i a := (rfl)
@[simp] theorem State.freeHeld_hold (s : State) (b : Fin 16) : (s.freeHeld b).hold = tset s.hold b .free := (rfl)
@[simp] theorem State.freeIntake_icls (s : State) (j : Fin 4) :
    (s.freeIntake j).icls = { s.icls with slots := tset s.icls.slots j .free } := (rfl)
@[simp] theorem State.cancelWaking_wake (s : State) (i : Slot) : (s.cancelWaking i).wake = tset s.wake i none := (rfl)
@[simp] theorem State.startInterval_wake (s : State) (i : Slot) (a : Address) : (s.startInterval i a).wake =
    tset s.wake i (some { address := a, remaining := s.mport.settings.wakeInterval.toNat }) := (rfl)
@[simp] theorem State.place_steer (s : State) (k : SteerKind) (i : Slot) (st : Station) : (s.place k i st).steer =
    s.steer.place { kind := k, slot := i, address := st.address, segment := st.segment, port := st.port } := (rfl)
@[simp] theorem State.transmit_out (s : State) (b : RequestBody) (q : BitVec 4) :
    (s.transmit b q).out = s.out.beginMessage (requestMessage b q) := (rfl)
@[simp] theorem State.sendNew_steer (s : State) (b : RequestBody) : (s.sendNew b).steer =
    { s.steer with inFlight := some { body := b, sequence := s.steer.sequence, retries := 0 }
                   sequence := s.steer.sequence + 1#4
                   ackTimer := some s.mport.settings.steerAckTimeout.toNat } := (rfl)
@[simp] theorem State.sendNew_out (s : State) (b : RequestBody) :
    (s.sendNew b).out = s.out.beginMessage (requestMessage b s.steer.sequence) := (rfl)
@[simp] theorem State.resend_steer (s : State) (f : InFlight) (n : Nat) : (s.resend f n).steer =
    { s.steer with inFlight := some { f with retries := n }
                   ackTimer := some s.mport.settings.steerAckTimeout.toNat } := (rfl)
@[simp] theorem State.resend_out (s : State) (f : InFlight) (n : Nat) :
    (s.resend f n).out = s.out.beginMessage (requestMessage f.body f.sequence) := (rfl)
@[simp] theorem State.drivePins_nint (s : State) : s.drivePins.nint = s.nintAsserted := (rfl)
@[simp] theorem State.drivePins_intakeReady (s : State) : s.drivePins.intakeReady = s.readyForFrames := (rfl)
@[simp] theorem State.refuseConfig_mport (s : State) : s.refuseConfig.mport = { s.mport with configRefused := true } := (rfl)
@[simp] theorem State.refuseName_mport (s : State) : s.refuseName.mport = { s.mport with nameWriteRefused := true } := (rfl)
@[simp] theorem State.storeControl_mport (s : State) (b : Byte) :
    (s.storeControl b).mport = { s.mport with run := b.getLsbD 0, intEnable := b.getLsbD 2 } := (rfl)
@[simp] theorem State.afterRun_steer (s : State) : s.afterRun.steer = { s.steer with footing := true } := (rfl)
@[simp] theorem State.passMilliseconds_steer (s : State) (n : Nat) :
    (s.passMilliseconds n).steer = { s.steer with ackTimer := s.steer.ackTimer.map (· - n) } := (rfl)
@[simp] theorem State.passMilliseconds_nq (s : State) (n : Nat) : (s.passMilliseconds n).nq =
    { s.nq with queue := s.nq.queue.map fun x => { x with age := saturate8 x.age n } } := (rfl)
@[simp] theorem State.startPart_steer (s : State) : s.startPart.steer =
    { s.steer with mode := .starting, link := .up, deferredStart := false
                   inFlight := some { body := .clearAll, sequence := s.steer.sequence, retries := 0 }
                   sequence := s.steer.sequence + 1#4
                   ackTimer := some s.mport.settings.steerAckTimeout.toNat } := (rfl)
@[simp] theorem State.startPart_out (s : State) : s.startPart.out =
    s.out.beginMessage (requestMessage .clearAll s.steer.sequence) := (rfl)
@[simp] theorem State.abandonStart_steer (s : State) : s.abandonStart.steer =
    { s.steer with mode := .stopped, link := .idle, inFlight := none, ackTimer := none } := (rfl)
@[simp] theorem State.abandonStart_nq (s : State) : s.abandonStart.nq =
    s.nq.post { kind := .modeChanged, subject := none, detail := .mode .stopped } := (rfl)
@[simp] theorem State.arriveStopped_steer (s : State) : s.arriveStopped.steer =
    { s.steer with mode := .stopped, link := .idle, inFlight := none, ackTimer := none
                   deferredStart := s.mport.run } := (rfl)
@[simp] theorem State.arriveStopped_nq (s : State) : s.arriveStopped.nq =
    s.nq.post { kind := .modeChanged, subject := none, detail := .mode .stopped } := (rfl)
@[simp] theorem State.setProgress_cmde (s : State) (c : Memory) (p : Progress) :
    (s.setProgress c p).cmde = { s.cmde with engine := .busy c p } := (rfl)
@[simp] theorem State.complete_cmde (s : State) (c : Memory) (r : Reply) : (s.complete c r).cmde =
    { s.cmde with engine := .idle, resultArea := Memory.ofBytes (resultRecord c r) } := (rfl)
@[simp] theorem State.dropAnswer_nq (s : State) (a : DroppedAnswer) (w : DropCause) : (s.dropAnswer a w).nq =
    s.nq.post { kind := .answerDropped, subject := none, detail := .drop a w } := (rfl)
@[simp] theorem State.popAnswerJob_resp (s : State) :
    s.popAnswerJob.resp = { s.resp with answerJobs := s.resp.answerJobs.tail } := (rfl)
@[simp] theorem State.present_presented (s : State) (i : Slot) (a : Address) (k : PresentedKind) :
    (s.present i a k).presented = s.presented ++ [{ slot := i, address := a, kind := k }] := (rfl)
@[simp] theorem State.handAnswer_resp (s : State) (j : AnswerJob) :
    (s.handAnswer j).resp = { s.resp with answerJobs := s.resp.answerJobs ++ [j] } := (rfl)
@[simp] theorem State.endFrame_icls (s : State) (j : Fin 4) (x : IntakeSlot) : (s.endFrame j x).icls =
    { slots := tset s.icls.slots j x, arrivals := s.icls.arrivals.tail, current := none } := (rfl)
@[simp] theorem State.nextTest_icls (s : State) (q : Option Slot) (n : NextTest) :
    (s.nextTest q n).icls = { s.icls with current := some { next := n, sighted := q } } := (rfl)
@[simp] theorem State.popPresented_presented (s : State) (i : Slot) :
    (s.popPresented i).presented = s.presented.eraseP fun e => decide (e.slot = i) := (rfl)
@[simp] theorem State.endTransfer_out (s : State) (t : Transfer) (e : TransferEnd) :
    (s.endTransfer t e).out = { s.out with emitted := s.out.emitted ++ [(t, e)] } := (rfl)
@[simp] theorem State.passSeconds_stab (s : State) (n : Nat) :
    (s.passSeconds n).stab = tmap (fun r => r.passSeconds n) s.stab := (rfl)
@[simp] theorem State.passUnits_wake (s : State) (n : Nat) : (s.passUnits n).wake =
    tmap (fun c => c.map fun x => { x with remaining := x.remaining - n }) s.wake := (rfl)
@[simp] theorem State.attachRule_stab (s : State) (i : Slot) (st : Station) (n : RuleNumber) :
    (s.attachRule i st n).stab =
      tset s.stab i { generation := s.generation i, station := some { st with rules := st.rules ++ [n] } } := (rfl)
@[simp] theorem State.attachRule_rstore (s : State) (i : Slot) (st : Station) (n : RuleNumber) :
    (s.attachRule i st n).rstore = updateCount s.rstore n (· + 1) := (rfl)
@[simp] theorem State.detachRule_stab (s : State) (i : Slot) (st : Station) (n : RuleNumber) :
    (s.detachRule i st n).stab =
      tset s.stab i { generation := s.generation i, station := some { st with rules := st.rules.erase n } } := (rfl)
@[simp] theorem State.detachRule_rstore (s : State) (i : Slot) (st : Station) (n : RuleNumber) :
    (s.detachRule i st n).rstore = updateCount s.rstore n (· - 1) := (rfl)
@[simp] theorem State.addIdentifier_stab (s : State) (i : Slot) (st : Station) (id : Identifier) (f : Bool) :
    (s.addIdentifier i st id f).stab = tset s.stab i
      { generation := s.generation i
        station := some { st with identifiers := st.identifiers ++ [{ identifier := id, wakeOnQuery := f }] } } := (rfl)
@[simp] theorem State.addIdentifier_idmap (s : State) (i : Slot) (st : Station) (id : Identifier) (f : Bool) :
    (s.addIdentifier i st id f).idmap =
      s.idmap ++ [{ identifier := id, segment := st.segment, slot := i, wakeOnQuery := f }] := (rfl)
@[simp] theorem State.removeIdentifier_stab (s : State) (i : Slot) (st : Station) (id : Identifier) :
    (s.removeIdentifier i st id).stab = tset s.stab i
      { generation := s.generation i
        station := some { st with identifiers := st.identifiers.filter fun l => decide (l.identifier ≠ id) } } := (rfl)
@[simp] theorem State.removeIdentifier_idmap (s : State) (i : Slot) (st : Station) (id : Identifier) :
    (s.removeIdentifier i st id).idmap =
      s.idmap.filter fun e => !(decide (e.identifier = id) && decide (e.segment = st.segment)) := (rfl)
@[simp] theorem State.vacate_stab (s : State) (i : Slot) (st : Station) :
    (s.vacate i st).stab = tset s.stab i { generation := s.generation i + 1#8, station := none } := (rfl)
@[simp] theorem State.vacate_idmap (s : State) (i : Slot) (st : Station) :
    (s.vacate i st).idmap = removeMapped s.idmap st.segment st.identifiers := (rfl)
@[simp] theorem State.vacate_rstore (s : State) (i : Slot) (st : Station) :
    (s.vacate i st).rstore = lowerCounts s.rstore st.rules := (rfl)
@[simp] theorem State.vacate_nq (s : State) (i : Slot) (st : Station) : (s.vacate i st).nq =
    s.nq.post { kind := .stationRetired, subject := some (i, s.generation i), detail := .none } := (rfl)
@[simp] theorem State.shedFrame_presented (s : State) (j : Fin 4) (i : Slot) (st : Station) :
    (s.shedFrame j i st).presented = s.presented ++ [{ slot := i, address := st.address, kind := .shed }] := (rfl)
@[simp] theorem State.shedFrame_icls (s : State) (j : Fin 4) (i : Slot) (st : Station) : (s.shedFrame j i st).icls =
    { slots := tset s.icls.slots j .free, arrivals := s.icls.arrivals.tail, current := none } := (rfl)

@[simp] theorem State.setRecord_presented (s : State) (i : Slot) (r : Record) : (s.setRecord i r).presented = s.presented := (rfl)
@[simp] theorem State.setRecord_idmap (s : State) (i : Slot) (r : Record) : (s.setRecord i r).idmap = s.idmap := (rfl)
@[simp] theorem State.setRecord_rstore (s : State) (i : Slot) (r : Record) : (s.setRecord i r).rstore = s.rstore := (rfl)
@[simp] theorem State.setRecord_icls (s : State) (i : Slot) (r : Record) : (s.setRecord i r).icls = s.icls := (rfl)
@[simp] theorem State.setRecord_resp (s : State) (i : Slot) (r : Record) : (s.setRecord i r).resp = s.resp := (rfl)
@[simp] theorem State.setRecord_wake (s : State) (i : Slot) (r : Record) : (s.setRecord i r).wake = s.wake := (rfl)
@[simp] theorem State.setRecord_hold (s : State) (i : Slot) (r : Record) : (s.setRecord i r).hold = s.hold := (rfl)
@[simp] theorem State.setRecord_emit (s : State) (i : Slot) (r : Record) : (s.setRecord i r).emit = s.emit := (rfl)
@[simp] theorem State.setRecord_steer (s : State) (i : Slot) (r : Record) : (s.setRecord i r).steer = s.steer := (rfl)
@[simp] theorem State.setRecord_cmde (s : State) (i : Slot) (r : Record) : (s.setRecord i r).cmde = s.cmde := (rfl)
@[simp] theorem State.setRecord_nq (s : State) (i : Slot) (r : Record) : (s.setRecord i r).nq = s.nq := (rfl)
@[simp] theorem State.setRecord_mport (s : State) (i : Slot) (r : Record) : (s.setRecord i r).mport = s.mport := (rfl)
@[simp] theorem State.setRecord_nint (s : State) (i : Slot) (r : Record) : (s.setRecord i r).nint = s.nint := (rfl)
@[simp] theorem State.setRecord_intakeReady (s : State) (i : Slot) (r : Record) : (s.setRecord i r).intakeReady = s.intakeReady := (rfl)
@[simp] theorem State.setRecord_out (s : State) (i : Slot) (r : Record) : (s.setRecord i r).out = s.out := (rfl)
@[simp] theorem State.setRecord_pending (s : State) (i : Slot) (r : Record) : (s.setRecord i r).pending = s.pending := (rfl)
@[simp] theorem State.setStation_presented (s : State) (i : Slot) (st : Station) : (s.setStation i st).presented = s.presented := (rfl)
@[simp] theorem State.setStation_idmap (s : State) (i : Slot) (st : Station) : (s.setStation i st).idmap = s.idmap := (rfl)
@[simp] theorem State.setStation_rstore (s : State) (i : Slot) (st : Station) : (s.setStation i st).rstore = s.rstore := (rfl)
@[simp] theorem State.setStation_icls (s : State) (i : Slot) (st : Station) : (s.setStation i st).icls = s.icls := (rfl)
@[simp] theorem State.setStation_resp (s : State) (i : Slot) (st : Station) : (s.setStation i st).resp = s.resp := (rfl)
@[simp] theorem State.setStation_wake (s : State) (i : Slot) (st : Station) : (s.setStation i st).wake = s.wake := (rfl)
@[simp] theorem State.setStation_hold (s : State) (i : Slot) (st : Station) : (s.setStation i st).hold = s.hold := (rfl)
@[simp] theorem State.setStation_emit (s : State) (i : Slot) (st : Station) : (s.setStation i st).emit = s.emit := (rfl)
@[simp] theorem State.setStation_steer (s : State) (i : Slot) (st : Station) : (s.setStation i st).steer = s.steer := (rfl)
@[simp] theorem State.setStation_cmde (s : State) (i : Slot) (st : Station) : (s.setStation i st).cmde = s.cmde := (rfl)
@[simp] theorem State.setStation_nq (s : State) (i : Slot) (st : Station) : (s.setStation i st).nq = s.nq := (rfl)
@[simp] theorem State.setStation_mport (s : State) (i : Slot) (st : Station) : (s.setStation i st).mport = s.mport := (rfl)
@[simp] theorem State.setStation_nint (s : State) (i : Slot) (st : Station) : (s.setStation i st).nint = s.nint := (rfl)
@[simp] theorem State.setStation_intakeReady (s : State) (i : Slot) (st : Station) : (s.setStation i st).intakeReady = s.intakeReady := (rfl)
@[simp] theorem State.setStation_out (s : State) (i : Slot) (st : Station) : (s.setStation i st).out = s.out := (rfl)
@[simp] theorem State.setStation_pending (s : State) (i : Slot) (st : Station) : (s.setStation i st).pending = s.pending := (rfl)
@[simp] theorem State.post_stab (s : State) (k : NoticeKind) (d : Detail) : (s.post k d).stab = s.stab := (rfl)
@[simp] theorem State.post_presented (s : State) (k : NoticeKind) (d : Detail) : (s.post k d).presented = s.presented := (rfl)
@[simp] theorem State.post_idmap (s : State) (k : NoticeKind) (d : Detail) : (s.post k d).idmap = s.idmap := (rfl)
@[simp] theorem State.post_rstore (s : State) (k : NoticeKind) (d : Detail) : (s.post k d).rstore = s.rstore := (rfl)
@[simp] theorem State.post_icls (s : State) (k : NoticeKind) (d : Detail) : (s.post k d).icls = s.icls := (rfl)
@[simp] theorem State.post_resp (s : State) (k : NoticeKind) (d : Detail) : (s.post k d).resp = s.resp := (rfl)
@[simp] theorem State.post_wake (s : State) (k : NoticeKind) (d : Detail) : (s.post k d).wake = s.wake := (rfl)
@[simp] theorem State.post_hold (s : State) (k : NoticeKind) (d : Detail) : (s.post k d).hold = s.hold := (rfl)
@[simp] theorem State.post_emit (s : State) (k : NoticeKind) (d : Detail) : (s.post k d).emit = s.emit := (rfl)
@[simp] theorem State.post_steer (s : State) (k : NoticeKind) (d : Detail) : (s.post k d).steer = s.steer := (rfl)
@[simp] theorem State.post_cmde (s : State) (k : NoticeKind) (d : Detail) : (s.post k d).cmde = s.cmde := (rfl)
@[simp] theorem State.post_mport (s : State) (k : NoticeKind) (d : Detail) : (s.post k d).mport = s.mport := (rfl)
@[simp] theorem State.post_nint (s : State) (k : NoticeKind) (d : Detail) : (s.post k d).nint = s.nint := (rfl)
@[simp] theorem State.post_intakeReady (s : State) (k : NoticeKind) (d : Detail) : (s.post k d).intakeReady = s.intakeReady := (rfl)
@[simp] theorem State.post_out (s : State) (k : NoticeKind) (d : Detail) : (s.post k d).out = s.out := (rfl)
@[simp] theorem State.post_pending (s : State) (k : NoticeKind) (d : Detail) : (s.post k d).pending = s.pending := (rfl)
@[simp] theorem State.postFor_stab (s : State) (i : Slot) (k : NoticeKind) (d : Detail) : (s.postFor i k d).stab = s.stab := (rfl)
@[simp] theorem State.postFor_presented (s : State) (i : Slot) (k : NoticeKind) (d : Detail) : (s.postFor i k d).presented = s.presented := (rfl)
@[simp] theorem State.postFor_idmap (s : State) (i : Slot) (k : NoticeKind) (d : Detail) : (s.postFor i k d).idmap = s.idmap := (rfl)
@[simp] theorem State.postFor_rstore (s : State) (i : Slot) (k : NoticeKind) (d : Detail) : (s.postFor i k d).rstore = s.rstore := (rfl)
@[simp] theorem State.postFor_icls (s : State) (i : Slot) (k : NoticeKind) (d : Detail) : (s.postFor i k d).icls = s.icls := (rfl)
@[simp] theorem State.postFor_resp (s : State) (i : Slot) (k : NoticeKind) (d : Detail) : (s.postFor i k d).resp = s.resp := (rfl)
@[simp] theorem State.postFor_wake (s : State) (i : Slot) (k : NoticeKind) (d : Detail) : (s.postFor i k d).wake = s.wake := (rfl)
@[simp] theorem State.postFor_hold (s : State) (i : Slot) (k : NoticeKind) (d : Detail) : (s.postFor i k d).hold = s.hold := (rfl)
@[simp] theorem State.postFor_emit (s : State) (i : Slot) (k : NoticeKind) (d : Detail) : (s.postFor i k d).emit = s.emit := (rfl)
@[simp] theorem State.postFor_steer (s : State) (i : Slot) (k : NoticeKind) (d : Detail) : (s.postFor i k d).steer = s.steer := (rfl)
@[simp] theorem State.postFor_cmde (s : State) (i : Slot) (k : NoticeKind) (d : Detail) : (s.postFor i k d).cmde = s.cmde := (rfl)
@[simp] theorem State.postFor_mport (s : State) (i : Slot) (k : NoticeKind) (d : Detail) : (s.postFor i k d).mport = s.mport := (rfl)
@[simp] theorem State.postFor_nint (s : State) (i : Slot) (k : NoticeKind) (d : Detail) : (s.postFor i k d).nint = s.nint := (rfl)
@[simp] theorem State.postFor_intakeReady (s : State) (i : Slot) (k : NoticeKind) (d : Detail) : (s.postFor i k d).intakeReady = s.intakeReady := (rfl)
@[simp] theorem State.postFor_out (s : State) (i : Slot) (k : NoticeKind) (d : Detail) : (s.postFor i k d).out = s.out := (rfl)
@[simp] theorem State.postFor_pending (s : State) (i : Slot) (k : NoticeKind) (d : Detail) : (s.postFor i k d).pending = s.pending := (rfl)
@[simp] theorem State.withdrawWakes_stab (s : State) (i : Slot) (a : Address) : (s.withdrawWakes i a).stab = s.stab := (rfl)
@[simp] theorem State.withdrawWakes_presented (s : State) (i : Slot) (a : Address) : (s.withdrawWakes i a).presented = s.presented := (rfl)
@[simp] theorem State.withdrawWakes_idmap (s : State) (i : Slot) (a : Address) : (s.withdrawWakes i a).idmap = s.idmap := (rfl)
@[simp] theorem State.withdrawWakes_rstore (s : State) (i : Slot) (a : Address) : (s.withdrawWakes i a).rstore = s.rstore := (rfl)
@[simp] theorem State.withdrawWakes_icls (s : State) (i : Slot) (a : Address) : (s.withdrawWakes i a).icls = s.icls := (rfl)
@[simp] theorem State.withdrawWakes_resp (s : State) (i : Slot) (a : Address) : (s.withdrawWakes i a).resp = s.resp := (rfl)
@[simp] theorem State.withdrawWakes_wake (s : State) (i : Slot) (a : Address) : (s.withdrawWakes i a).wake = s.wake := (rfl)
@[simp] theorem State.withdrawWakes_hold (s : State) (i : Slot) (a : Address) : (s.withdrawWakes i a).hold = s.hold := (rfl)
@[simp] theorem State.withdrawWakes_steer (s : State) (i : Slot) (a : Address) : (s.withdrawWakes i a).steer = s.steer := (rfl)
@[simp] theorem State.withdrawWakes_cmde (s : State) (i : Slot) (a : Address) : (s.withdrawWakes i a).cmde = s.cmde := (rfl)
@[simp] theorem State.withdrawWakes_nq (s : State) (i : Slot) (a : Address) : (s.withdrawWakes i a).nq = s.nq := (rfl)
@[simp] theorem State.withdrawWakes_mport (s : State) (i : Slot) (a : Address) : (s.withdrawWakes i a).mport = s.mport := (rfl)
@[simp] theorem State.withdrawWakes_nint (s : State) (i : Slot) (a : Address) : (s.withdrawWakes i a).nint = s.nint := (rfl)
@[simp] theorem State.withdrawWakes_intakeReady (s : State) (i : Slot) (a : Address) : (s.withdrawWakes i a).intakeReady = s.intakeReady := (rfl)
@[simp] theorem State.withdrawWakes_out (s : State) (i : Slot) (a : Address) : (s.withdrawWakes i a).out = s.out := (rfl)
@[simp] theorem State.withdrawWakes_pending (s : State) (i : Slot) (a : Address) : (s.withdrawWakes i a).pending = s.pending := (rfl)
@[simp] theorem State.freeHeld_stab (s : State) (b : Fin 16) : (s.freeHeld b).stab = s.stab := (rfl)
@[simp] theorem State.freeHeld_presented (s : State) (b : Fin 16) : (s.freeHeld b).presented = s.presented := (rfl)
@[simp] theorem State.freeHeld_idmap (s : State) (b : Fin 16) : (s.freeHeld b).idmap = s.idmap := (rfl)
@[simp] theorem State.freeHeld_rstore (s : State) (b : Fin 16) : (s.freeHeld b).rstore = s.rstore := (rfl)
@[simp] theorem State.freeHeld_icls (s : State) (b : Fin 16) : (s.freeHeld b).icls = s.icls := (rfl)
@[simp] theorem State.freeHeld_resp (s : State) (b : Fin 16) : (s.freeHeld b).resp = s.resp := (rfl)
@[simp] theorem State.freeHeld_wake (s : State) (b : Fin 16) : (s.freeHeld b).wake = s.wake := (rfl)
@[simp] theorem State.freeHeld_emit (s : State) (b : Fin 16) : (s.freeHeld b).emit = s.emit := (rfl)
@[simp] theorem State.freeHeld_steer (s : State) (b : Fin 16) : (s.freeHeld b).steer = s.steer := (rfl)
@[simp] theorem State.freeHeld_cmde (s : State) (b : Fin 16) : (s.freeHeld b).cmde = s.cmde := (rfl)
@[simp] theorem State.freeHeld_nq (s : State) (b : Fin 16) : (s.freeHeld b).nq = s.nq := (rfl)
@[simp] theorem State.freeHeld_mport (s : State) (b : Fin 16) : (s.freeHeld b).mport = s.mport := (rfl)
@[simp] theorem State.freeHeld_nint (s : State) (b : Fin 16) : (s.freeHeld b).nint = s.nint := (rfl)
@[simp] theorem State.freeHeld_intakeReady (s : State) (b : Fin 16) : (s.freeHeld b).intakeReady = s.intakeReady := (rfl)
@[simp] theorem State.freeHeld_out (s : State) (b : Fin 16) : (s.freeHeld b).out = s.out := (rfl)
@[simp] theorem State.freeHeld_pending (s : State) (b : Fin 16) : (s.freeHeld b).pending = s.pending := (rfl)
@[simp] theorem State.freeIntake_stab (s : State) (j : Fin 4) : (s.freeIntake j).stab = s.stab := (rfl)
@[simp] theorem State.freeIntake_presented (s : State) (j : Fin 4) : (s.freeIntake j).presented = s.presented := (rfl)
@[simp] theorem State.freeIntake_idmap (s : State) (j : Fin 4) : (s.freeIntake j).idmap = s.idmap := (rfl)
@[simp] theorem State.freeIntake_rstore (s : State) (j : Fin 4) : (s.freeIntake j).rstore = s.rstore := (rfl)
@[simp] theorem State.freeIntake_resp (s : State) (j : Fin 4) : (s.freeIntake j).resp = s.resp := (rfl)
@[simp] theorem State.freeIntake_wake (s : State) (j : Fin 4) : (s.freeIntake j).wake = s.wake := (rfl)
@[simp] theorem State.freeIntake_hold (s : State) (j : Fin 4) : (s.freeIntake j).hold = s.hold := (rfl)
@[simp] theorem State.freeIntake_emit (s : State) (j : Fin 4) : (s.freeIntake j).emit = s.emit := (rfl)
@[simp] theorem State.freeIntake_steer (s : State) (j : Fin 4) : (s.freeIntake j).steer = s.steer := (rfl)
@[simp] theorem State.freeIntake_cmde (s : State) (j : Fin 4) : (s.freeIntake j).cmde = s.cmde := (rfl)
@[simp] theorem State.freeIntake_nq (s : State) (j : Fin 4) : (s.freeIntake j).nq = s.nq := (rfl)
@[simp] theorem State.freeIntake_mport (s : State) (j : Fin 4) : (s.freeIntake j).mport = s.mport := (rfl)
@[simp] theorem State.freeIntake_nint (s : State) (j : Fin 4) : (s.freeIntake j).nint = s.nint := (rfl)
@[simp] theorem State.freeIntake_intakeReady (s : State) (j : Fin 4) : (s.freeIntake j).intakeReady = s.intakeReady := (rfl)
@[simp] theorem State.freeIntake_out (s : State) (j : Fin 4) : (s.freeIntake j).out = s.out := (rfl)
@[simp] theorem State.freeIntake_pending (s : State) (j : Fin 4) : (s.freeIntake j).pending = s.pending := (rfl)
@[simp] theorem State.cancelWaking_stab (s : State) (i : Slot) : (s.cancelWaking i).stab = s.stab := (rfl)
@[simp] theorem State.cancelWaking_presented (s : State) (i : Slot) : (s.cancelWaking i).presented = s.presented := (rfl)
@[simp] theorem State.cancelWaking_idmap (s : State) (i : Slot) : (s.cancelWaking i).idmap = s.idmap := (rfl)
@[simp] theorem State.cancelWaking_rstore (s : State) (i : Slot) : (s.cancelWaking i).rstore = s.rstore := (rfl)
@[simp] theorem State.cancelWaking_icls (s : State) (i : Slot) : (s.cancelWaking i).icls = s.icls := (rfl)
@[simp] theorem State.cancelWaking_resp (s : State) (i : Slot) : (s.cancelWaking i).resp = s.resp := (rfl)
@[simp] theorem State.cancelWaking_hold (s : State) (i : Slot) : (s.cancelWaking i).hold = s.hold := (rfl)
@[simp] theorem State.cancelWaking_emit (s : State) (i : Slot) : (s.cancelWaking i).emit = s.emit := (rfl)
@[simp] theorem State.cancelWaking_steer (s : State) (i : Slot) : (s.cancelWaking i).steer = s.steer := (rfl)
@[simp] theorem State.cancelWaking_cmde (s : State) (i : Slot) : (s.cancelWaking i).cmde = s.cmde := (rfl)
@[simp] theorem State.cancelWaking_nq (s : State) (i : Slot) : (s.cancelWaking i).nq = s.nq := (rfl)
@[simp] theorem State.cancelWaking_mport (s : State) (i : Slot) : (s.cancelWaking i).mport = s.mport := (rfl)
@[simp] theorem State.cancelWaking_nint (s : State) (i : Slot) : (s.cancelWaking i).nint = s.nint := (rfl)
@[simp] theorem State.cancelWaking_intakeReady (s : State) (i : Slot) : (s.cancelWaking i).intakeReady = s.intakeReady := (rfl)
@[simp] theorem State.cancelWaking_out (s : State) (i : Slot) : (s.cancelWaking i).out = s.out := (rfl)
@[simp] theorem State.cancelWaking_pending (s : State) (i : Slot) : (s.cancelWaking i).pending = s.pending := (rfl)
@[simp] theorem State.startInterval_stab (s : State) (i : Slot) (a : Address) : (s.startInterval i a).stab = s.stab := (rfl)
@[simp] theorem State.startInterval_presented (s : State) (i : Slot) (a : Address) : (s.startInterval i a).presented = s.presented := (rfl)
@[simp] theorem State.startInterval_idmap (s : State) (i : Slot) (a : Address) : (s.startInterval i a).idmap = s.idmap := (rfl)
@[simp] theorem State.startInterval_rstore (s : State) (i : Slot) (a : Address) : (s.startInterval i a).rstore = s.rstore := (rfl)
@[simp] theorem State.startInterval_icls (s : State) (i : Slot) (a : Address) : (s.startInterval i a).icls = s.icls := (rfl)
@[simp] theorem State.startInterval_resp (s : State) (i : Slot) (a : Address) : (s.startInterval i a).resp = s.resp := (rfl)
@[simp] theorem State.startInterval_hold (s : State) (i : Slot) (a : Address) : (s.startInterval i a).hold = s.hold := (rfl)
@[simp] theorem State.startInterval_emit (s : State) (i : Slot) (a : Address) : (s.startInterval i a).emit = s.emit := (rfl)
@[simp] theorem State.startInterval_steer (s : State) (i : Slot) (a : Address) : (s.startInterval i a).steer = s.steer := (rfl)
@[simp] theorem State.startInterval_cmde (s : State) (i : Slot) (a : Address) : (s.startInterval i a).cmde = s.cmde := (rfl)
@[simp] theorem State.startInterval_nq (s : State) (i : Slot) (a : Address) : (s.startInterval i a).nq = s.nq := (rfl)
@[simp] theorem State.startInterval_mport (s : State) (i : Slot) (a : Address) : (s.startInterval i a).mport = s.mport := (rfl)
@[simp] theorem State.startInterval_nint (s : State) (i : Slot) (a : Address) : (s.startInterval i a).nint = s.nint := (rfl)
@[simp] theorem State.startInterval_intakeReady (s : State) (i : Slot) (a : Address) : (s.startInterval i a).intakeReady = s.intakeReady := (rfl)
@[simp] theorem State.startInterval_out (s : State) (i : Slot) (a : Address) : (s.startInterval i a).out = s.out := (rfl)
@[simp] theorem State.startInterval_pending (s : State) (i : Slot) (a : Address) : (s.startInterval i a).pending = s.pending := (rfl)
@[simp] theorem State.place_stab (s : State) (k : SteerKind) (i : Slot) (st : Station) : (s.place k i st).stab = s.stab := (rfl)
@[simp] theorem State.place_presented (s : State) (k : SteerKind) (i : Slot) (st : Station) : (s.place k i st).presented = s.presented := (rfl)
@[simp] theorem State.place_idmap (s : State) (k : SteerKind) (i : Slot) (st : Station) : (s.place k i st).idmap = s.idmap := (rfl)
@[simp] theorem State.place_rstore (s : State) (k : SteerKind) (i : Slot) (st : Station) : (s.place k i st).rstore = s.rstore := (rfl)
@[simp] theorem State.place_icls (s : State) (k : SteerKind) (i : Slot) (st : Station) : (s.place k i st).icls = s.icls := (rfl)
@[simp] theorem State.place_resp (s : State) (k : SteerKind) (i : Slot) (st : Station) : (s.place k i st).resp = s.resp := (rfl)
@[simp] theorem State.place_wake (s : State) (k : SteerKind) (i : Slot) (st : Station) : (s.place k i st).wake = s.wake := (rfl)
@[simp] theorem State.place_hold (s : State) (k : SteerKind) (i : Slot) (st : Station) : (s.place k i st).hold = s.hold := (rfl)
@[simp] theorem State.place_emit (s : State) (k : SteerKind) (i : Slot) (st : Station) : (s.place k i st).emit = s.emit := (rfl)
@[simp] theorem State.place_cmde (s : State) (k : SteerKind) (i : Slot) (st : Station) : (s.place k i st).cmde = s.cmde := (rfl)
@[simp] theorem State.place_nq (s : State) (k : SteerKind) (i : Slot) (st : Station) : (s.place k i st).nq = s.nq := (rfl)
@[simp] theorem State.place_mport (s : State) (k : SteerKind) (i : Slot) (st : Station) : (s.place k i st).mport = s.mport := (rfl)
@[simp] theorem State.place_nint (s : State) (k : SteerKind) (i : Slot) (st : Station) : (s.place k i st).nint = s.nint := (rfl)
@[simp] theorem State.place_intakeReady (s : State) (k : SteerKind) (i : Slot) (st : Station) : (s.place k i st).intakeReady = s.intakeReady := (rfl)
@[simp] theorem State.place_out (s : State) (k : SteerKind) (i : Slot) (st : Station) : (s.place k i st).out = s.out := (rfl)
@[simp] theorem State.place_pending (s : State) (k : SteerKind) (i : Slot) (st : Station) : (s.place k i st).pending = s.pending := (rfl)
@[simp] theorem State.transmit_stab (s : State) (b : RequestBody) (q : BitVec 4) : (s.transmit b q).stab = s.stab := (rfl)
@[simp] theorem State.transmit_presented (s : State) (b : RequestBody) (q : BitVec 4) : (s.transmit b q).presented = s.presented := (rfl)
@[simp] theorem State.transmit_idmap (s : State) (b : RequestBody) (q : BitVec 4) : (s.transmit b q).idmap = s.idmap := (rfl)
@[simp] theorem State.transmit_rstore (s : State) (b : RequestBody) (q : BitVec 4) : (s.transmit b q).rstore = s.rstore := (rfl)
@[simp] theorem State.transmit_icls (s : State) (b : RequestBody) (q : BitVec 4) : (s.transmit b q).icls = s.icls := (rfl)
@[simp] theorem State.transmit_resp (s : State) (b : RequestBody) (q : BitVec 4) : (s.transmit b q).resp = s.resp := (rfl)
@[simp] theorem State.transmit_wake (s : State) (b : RequestBody) (q : BitVec 4) : (s.transmit b q).wake = s.wake := (rfl)
@[simp] theorem State.transmit_hold (s : State) (b : RequestBody) (q : BitVec 4) : (s.transmit b q).hold = s.hold := (rfl)
@[simp] theorem State.transmit_emit (s : State) (b : RequestBody) (q : BitVec 4) : (s.transmit b q).emit = s.emit := (rfl)
@[simp] theorem State.transmit_steer (s : State) (b : RequestBody) (q : BitVec 4) : (s.transmit b q).steer = s.steer := (rfl)
@[simp] theorem State.transmit_cmde (s : State) (b : RequestBody) (q : BitVec 4) : (s.transmit b q).cmde = s.cmde := (rfl)
@[simp] theorem State.transmit_nq (s : State) (b : RequestBody) (q : BitVec 4) : (s.transmit b q).nq = s.nq := (rfl)
@[simp] theorem State.transmit_mport (s : State) (b : RequestBody) (q : BitVec 4) : (s.transmit b q).mport = s.mport := (rfl)
@[simp] theorem State.transmit_nint (s : State) (b : RequestBody) (q : BitVec 4) : (s.transmit b q).nint = s.nint := (rfl)
@[simp] theorem State.transmit_intakeReady (s : State) (b : RequestBody) (q : BitVec 4) : (s.transmit b q).intakeReady = s.intakeReady := (rfl)
@[simp] theorem State.transmit_pending (s : State) (b : RequestBody) (q : BitVec 4) : (s.transmit b q).pending = s.pending := (rfl)
@[simp] theorem State.sendNew_stab (s : State) (b : RequestBody) : (s.sendNew b).stab = s.stab := (rfl)
@[simp] theorem State.sendNew_presented (s : State) (b : RequestBody) : (s.sendNew b).presented = s.presented := (rfl)
@[simp] theorem State.sendNew_idmap (s : State) (b : RequestBody) : (s.sendNew b).idmap = s.idmap := (rfl)
@[simp] theorem State.sendNew_rstore (s : State) (b : RequestBody) : (s.sendNew b).rstore = s.rstore := (rfl)
@[simp] theorem State.sendNew_icls (s : State) (b : RequestBody) : (s.sendNew b).icls = s.icls := (rfl)
@[simp] theorem State.sendNew_resp (s : State) (b : RequestBody) : (s.sendNew b).resp = s.resp := (rfl)
@[simp] theorem State.sendNew_wake (s : State) (b : RequestBody) : (s.sendNew b).wake = s.wake := (rfl)
@[simp] theorem State.sendNew_hold (s : State) (b : RequestBody) : (s.sendNew b).hold = s.hold := (rfl)
@[simp] theorem State.sendNew_emit (s : State) (b : RequestBody) : (s.sendNew b).emit = s.emit := (rfl)
@[simp] theorem State.sendNew_cmde (s : State) (b : RequestBody) : (s.sendNew b).cmde = s.cmde := (rfl)
@[simp] theorem State.sendNew_nq (s : State) (b : RequestBody) : (s.sendNew b).nq = s.nq := (rfl)
@[simp] theorem State.sendNew_mport (s : State) (b : RequestBody) : (s.sendNew b).mport = s.mport := (rfl)
@[simp] theorem State.sendNew_nint (s : State) (b : RequestBody) : (s.sendNew b).nint = s.nint := (rfl)
@[simp] theorem State.sendNew_intakeReady (s : State) (b : RequestBody) : (s.sendNew b).intakeReady = s.intakeReady := (rfl)
@[simp] theorem State.sendNew_pending (s : State) (b : RequestBody) : (s.sendNew b).pending = s.pending := (rfl)
@[simp] theorem State.resend_stab (s : State) (f : InFlight) (n : Nat) : (s.resend f n).stab = s.stab := (rfl)
@[simp] theorem State.resend_presented (s : State) (f : InFlight) (n : Nat) : (s.resend f n).presented = s.presented := (rfl)
@[simp] theorem State.resend_idmap (s : State) (f : InFlight) (n : Nat) : (s.resend f n).idmap = s.idmap := (rfl)
@[simp] theorem State.resend_rstore (s : State) (f : InFlight) (n : Nat) : (s.resend f n).rstore = s.rstore := (rfl)
@[simp] theorem State.resend_icls (s : State) (f : InFlight) (n : Nat) : (s.resend f n).icls = s.icls := (rfl)
@[simp] theorem State.resend_resp (s : State) (f : InFlight) (n : Nat) : (s.resend f n).resp = s.resp := (rfl)
@[simp] theorem State.resend_wake (s : State) (f : InFlight) (n : Nat) : (s.resend f n).wake = s.wake := (rfl)
@[simp] theorem State.resend_hold (s : State) (f : InFlight) (n : Nat) : (s.resend f n).hold = s.hold := (rfl)
@[simp] theorem State.resend_emit (s : State) (f : InFlight) (n : Nat) : (s.resend f n).emit = s.emit := (rfl)
@[simp] theorem State.resend_cmde (s : State) (f : InFlight) (n : Nat) : (s.resend f n).cmde = s.cmde := (rfl)
@[simp] theorem State.resend_nq (s : State) (f : InFlight) (n : Nat) : (s.resend f n).nq = s.nq := (rfl)
@[simp] theorem State.resend_mport (s : State) (f : InFlight) (n : Nat) : (s.resend f n).mport = s.mport := (rfl)
@[simp] theorem State.resend_nint (s : State) (f : InFlight) (n : Nat) : (s.resend f n).nint = s.nint := (rfl)
@[simp] theorem State.resend_intakeReady (s : State) (f : InFlight) (n : Nat) : (s.resend f n).intakeReady = s.intakeReady := (rfl)
@[simp] theorem State.resend_pending (s : State) (f : InFlight) (n : Nat) : (s.resend f n).pending = s.pending := (rfl)
@[simp] theorem State.drivePins_stab (s : State) : (s.drivePins).stab = s.stab := (rfl)
@[simp] theorem State.drivePins_presented (s : State) : (s.drivePins).presented = s.presented := (rfl)
@[simp] theorem State.drivePins_idmap (s : State) : (s.drivePins).idmap = s.idmap := (rfl)
@[simp] theorem State.drivePins_rstore (s : State) : (s.drivePins).rstore = s.rstore := (rfl)
@[simp] theorem State.drivePins_icls (s : State) : (s.drivePins).icls = s.icls := (rfl)
@[simp] theorem State.drivePins_resp (s : State) : (s.drivePins).resp = s.resp := (rfl)
@[simp] theorem State.drivePins_wake (s : State) : (s.drivePins).wake = s.wake := (rfl)
@[simp] theorem State.drivePins_hold (s : State) : (s.drivePins).hold = s.hold := (rfl)
@[simp] theorem State.drivePins_emit (s : State) : (s.drivePins).emit = s.emit := (rfl)
@[simp] theorem State.drivePins_steer (s : State) : (s.drivePins).steer = s.steer := (rfl)
@[simp] theorem State.drivePins_cmde (s : State) : (s.drivePins).cmde = s.cmde := (rfl)
@[simp] theorem State.drivePins_nq (s : State) : (s.drivePins).nq = s.nq := (rfl)
@[simp] theorem State.drivePins_mport (s : State) : (s.drivePins).mport = s.mport := (rfl)
@[simp] theorem State.drivePins_out (s : State) : (s.drivePins).out = s.out := (rfl)
@[simp] theorem State.drivePins_pending (s : State) : (s.drivePins).pending = s.pending := (rfl)
@[simp] theorem State.refuseConfig_stab (s : State) : (s.refuseConfig).stab = s.stab := (rfl)
@[simp] theorem State.refuseConfig_presented (s : State) : (s.refuseConfig).presented = s.presented := (rfl)
@[simp] theorem State.refuseConfig_idmap (s : State) : (s.refuseConfig).idmap = s.idmap := (rfl)
@[simp] theorem State.refuseConfig_rstore (s : State) : (s.refuseConfig).rstore = s.rstore := (rfl)
@[simp] theorem State.refuseConfig_icls (s : State) : (s.refuseConfig).icls = s.icls := (rfl)
@[simp] theorem State.refuseConfig_resp (s : State) : (s.refuseConfig).resp = s.resp := (rfl)
@[simp] theorem State.refuseConfig_wake (s : State) : (s.refuseConfig).wake = s.wake := (rfl)
@[simp] theorem State.refuseConfig_hold (s : State) : (s.refuseConfig).hold = s.hold := (rfl)
@[simp] theorem State.refuseConfig_emit (s : State) : (s.refuseConfig).emit = s.emit := (rfl)
@[simp] theorem State.refuseConfig_steer (s : State) : (s.refuseConfig).steer = s.steer := (rfl)
@[simp] theorem State.refuseConfig_cmde (s : State) : (s.refuseConfig).cmde = s.cmde := (rfl)
@[simp] theorem State.refuseConfig_nq (s : State) : (s.refuseConfig).nq = s.nq := (rfl)
@[simp] theorem State.refuseConfig_nint (s : State) : (s.refuseConfig).nint = s.nint := (rfl)
@[simp] theorem State.refuseConfig_intakeReady (s : State) : (s.refuseConfig).intakeReady = s.intakeReady := (rfl)
@[simp] theorem State.refuseConfig_out (s : State) : (s.refuseConfig).out = s.out := (rfl)
@[simp] theorem State.refuseConfig_pending (s : State) : (s.refuseConfig).pending = s.pending := (rfl)
@[simp] theorem State.refuseName_stab (s : State) : (s.refuseName).stab = s.stab := (rfl)
@[simp] theorem State.refuseName_presented (s : State) : (s.refuseName).presented = s.presented := (rfl)
@[simp] theorem State.refuseName_idmap (s : State) : (s.refuseName).idmap = s.idmap := (rfl)
@[simp] theorem State.refuseName_rstore (s : State) : (s.refuseName).rstore = s.rstore := (rfl)
@[simp] theorem State.refuseName_icls (s : State) : (s.refuseName).icls = s.icls := (rfl)
@[simp] theorem State.refuseName_resp (s : State) : (s.refuseName).resp = s.resp := (rfl)
@[simp] theorem State.refuseName_wake (s : State) : (s.refuseName).wake = s.wake := (rfl)
@[simp] theorem State.refuseName_hold (s : State) : (s.refuseName).hold = s.hold := (rfl)
@[simp] theorem State.refuseName_emit (s : State) : (s.refuseName).emit = s.emit := (rfl)
@[simp] theorem State.refuseName_steer (s : State) : (s.refuseName).steer = s.steer := (rfl)
@[simp] theorem State.refuseName_cmde (s : State) : (s.refuseName).cmde = s.cmde := (rfl)
@[simp] theorem State.refuseName_nq (s : State) : (s.refuseName).nq = s.nq := (rfl)
@[simp] theorem State.refuseName_nint (s : State) : (s.refuseName).nint = s.nint := (rfl)
@[simp] theorem State.refuseName_intakeReady (s : State) : (s.refuseName).intakeReady = s.intakeReady := (rfl)
@[simp] theorem State.refuseName_out (s : State) : (s.refuseName).out = s.out := (rfl)
@[simp] theorem State.refuseName_pending (s : State) : (s.refuseName).pending = s.pending := (rfl)
@[simp] theorem State.storeControl_stab (s : State) (b : Byte) : (s.storeControl b).stab = s.stab := (rfl)
@[simp] theorem State.storeControl_presented (s : State) (b : Byte) : (s.storeControl b).presented = s.presented := (rfl)
@[simp] theorem State.storeControl_idmap (s : State) (b : Byte) : (s.storeControl b).idmap = s.idmap := (rfl)
@[simp] theorem State.storeControl_rstore (s : State) (b : Byte) : (s.storeControl b).rstore = s.rstore := (rfl)
@[simp] theorem State.storeControl_icls (s : State) (b : Byte) : (s.storeControl b).icls = s.icls := (rfl)
@[simp] theorem State.storeControl_resp (s : State) (b : Byte) : (s.storeControl b).resp = s.resp := (rfl)
@[simp] theorem State.storeControl_wake (s : State) (b : Byte) : (s.storeControl b).wake = s.wake := (rfl)
@[simp] theorem State.storeControl_hold (s : State) (b : Byte) : (s.storeControl b).hold = s.hold := (rfl)
@[simp] theorem State.storeControl_emit (s : State) (b : Byte) : (s.storeControl b).emit = s.emit := (rfl)
@[simp] theorem State.storeControl_steer (s : State) (b : Byte) : (s.storeControl b).steer = s.steer := (rfl)
@[simp] theorem State.storeControl_cmde (s : State) (b : Byte) : (s.storeControl b).cmde = s.cmde := (rfl)
@[simp] theorem State.storeControl_nq (s : State) (b : Byte) : (s.storeControl b).nq = s.nq := (rfl)
@[simp] theorem State.storeControl_nint (s : State) (b : Byte) : (s.storeControl b).nint = s.nint := (rfl)
@[simp] theorem State.storeControl_intakeReady (s : State) (b : Byte) : (s.storeControl b).intakeReady = s.intakeReady := (rfl)
@[simp] theorem State.storeControl_out (s : State) (b : Byte) : (s.storeControl b).out = s.out := (rfl)
@[simp] theorem State.storeControl_pending (s : State) (b : Byte) : (s.storeControl b).pending = s.pending := (rfl)
@[simp] theorem State.afterRun_stab (s : State) : (s.afterRun).stab = s.stab := (rfl)
@[simp] theorem State.afterRun_presented (s : State) : (s.afterRun).presented = s.presented := (rfl)
@[simp] theorem State.afterRun_idmap (s : State) : (s.afterRun).idmap = s.idmap := (rfl)
@[simp] theorem State.afterRun_rstore (s : State) : (s.afterRun).rstore = s.rstore := (rfl)
@[simp] theorem State.afterRun_icls (s : State) : (s.afterRun).icls = s.icls := (rfl)
@[simp] theorem State.afterRun_resp (s : State) : (s.afterRun).resp = s.resp := (rfl)
@[simp] theorem State.afterRun_wake (s : State) : (s.afterRun).wake = s.wake := (rfl)
@[simp] theorem State.afterRun_hold (s : State) : (s.afterRun).hold = s.hold := (rfl)
@[simp] theorem State.afterRun_emit (s : State) : (s.afterRun).emit = s.emit := (rfl)
@[simp] theorem State.afterRun_cmde (s : State) : (s.afterRun).cmde = s.cmde := (rfl)
@[simp] theorem State.afterRun_nq (s : State) : (s.afterRun).nq = s.nq := (rfl)
@[simp] theorem State.afterRun_mport (s : State) : (s.afterRun).mport = s.mport := (rfl)
@[simp] theorem State.afterRun_nint (s : State) : (s.afterRun).nint = s.nint := (rfl)
@[simp] theorem State.afterRun_intakeReady (s : State) : (s.afterRun).intakeReady = s.intakeReady := (rfl)
@[simp] theorem State.afterRun_out (s : State) : (s.afterRun).out = s.out.endMessage .whole := (rfl)
@[simp] theorem State.afterRun_pending (s : State) : (s.afterRun).pending = s.pending := (rfl)
@[simp] theorem State.passMilliseconds_stab (s : State) (n : Nat) : (s.passMilliseconds n).stab = s.stab := (rfl)
@[simp] theorem State.passMilliseconds_presented (s : State) (n : Nat) : (s.passMilliseconds n).presented = s.presented := (rfl)
@[simp] theorem State.passMilliseconds_idmap (s : State) (n : Nat) : (s.passMilliseconds n).idmap = s.idmap := (rfl)
@[simp] theorem State.passMilliseconds_rstore (s : State) (n : Nat) : (s.passMilliseconds n).rstore = s.rstore := (rfl)
@[simp] theorem State.passMilliseconds_icls (s : State) (n : Nat) : (s.passMilliseconds n).icls = s.icls := (rfl)
@[simp] theorem State.passMilliseconds_resp (s : State) (n : Nat) : (s.passMilliseconds n).resp = s.resp := (rfl)
@[simp] theorem State.passMilliseconds_wake (s : State) (n : Nat) : (s.passMilliseconds n).wake = s.wake := (rfl)
@[simp] theorem State.passMilliseconds_hold (s : State) (n : Nat) : (s.passMilliseconds n).hold = s.hold := (rfl)
@[simp] theorem State.passMilliseconds_emit (s : State) (n : Nat) : (s.passMilliseconds n).emit = s.emit := (rfl)
@[simp] theorem State.passMilliseconds_cmde (s : State) (n : Nat) : (s.passMilliseconds n).cmde = s.cmde := (rfl)
@[simp] theorem State.passMilliseconds_mport (s : State) (n : Nat) : (s.passMilliseconds n).mport = s.mport := (rfl)
@[simp] theorem State.passMilliseconds_nint (s : State) (n : Nat) : (s.passMilliseconds n).nint = s.nint := (rfl)
@[simp] theorem State.passMilliseconds_intakeReady (s : State) (n : Nat) : (s.passMilliseconds n).intakeReady = s.intakeReady := (rfl)
@[simp] theorem State.passMilliseconds_out (s : State) (n : Nat) : (s.passMilliseconds n).out = s.out := (rfl)
@[simp] theorem State.passMilliseconds_pending (s : State) (n : Nat) : (s.passMilliseconds n).pending = s.pending := (rfl)
@[simp] theorem State.startPart_stab (s : State) : (s.startPart).stab = s.stab := (rfl)
@[simp] theorem State.startPart_presented (s : State) : (s.startPart).presented = s.presented := (rfl)
@[simp] theorem State.startPart_idmap (s : State) : (s.startPart).idmap = s.idmap := (rfl)
@[simp] theorem State.startPart_rstore (s : State) : (s.startPart).rstore = s.rstore := (rfl)
@[simp] theorem State.startPart_icls (s : State) : (s.startPart).icls = s.icls := (rfl)
@[simp] theorem State.startPart_resp (s : State) : (s.startPart).resp = s.resp := (rfl)
@[simp] theorem State.startPart_wake (s : State) : (s.startPart).wake = s.wake := (rfl)
@[simp] theorem State.startPart_hold (s : State) : (s.startPart).hold = s.hold := (rfl)
@[simp] theorem State.startPart_emit (s : State) : (s.startPart).emit = s.emit := (rfl)
@[simp] theorem State.startPart_cmde (s : State) : (s.startPart).cmde = s.cmde := (rfl)
@[simp] theorem State.startPart_nq (s : State) : (s.startPart).nq = s.nq := (rfl)
@[simp] theorem State.startPart_mport (s : State) : (s.startPart).mport = s.mport := (rfl)
@[simp] theorem State.startPart_nint (s : State) : (s.startPart).nint = s.nint := (rfl)
@[simp] theorem State.startPart_intakeReady (s : State) : (s.startPart).intakeReady = s.intakeReady := (rfl)
@[simp] theorem State.startPart_pending (s : State) : (s.startPart).pending = s.pending := (rfl)
@[simp] theorem State.abandonStart_stab (s : State) : (s.abandonStart).stab = s.stab := (rfl)
@[simp] theorem State.abandonStart_presented (s : State) : (s.abandonStart).presented = s.presented := (rfl)
@[simp] theorem State.abandonStart_idmap (s : State) : (s.abandonStart).idmap = s.idmap := (rfl)
@[simp] theorem State.abandonStart_rstore (s : State) : (s.abandonStart).rstore = s.rstore := (rfl)
@[simp] theorem State.abandonStart_icls (s : State) : (s.abandonStart).icls = s.icls := (rfl)
@[simp] theorem State.abandonStart_resp (s : State) : (s.abandonStart).resp = s.resp := (rfl)
@[simp] theorem State.abandonStart_wake (s : State) : (s.abandonStart).wake = s.wake := (rfl)
@[simp] theorem State.abandonStart_hold (s : State) : (s.abandonStart).hold = s.hold := (rfl)
@[simp] theorem State.abandonStart_emit (s : State) : (s.abandonStart).emit = s.emit := (rfl)
@[simp] theorem State.abandonStart_cmde (s : State) : (s.abandonStart).cmde = s.cmde := (rfl)
@[simp] theorem State.abandonStart_mport (s : State) : (s.abandonStart).mport = s.mport := (rfl)
@[simp] theorem State.abandonStart_nint (s : State) : (s.abandonStart).nint = s.nint := (rfl)
@[simp] theorem State.abandonStart_intakeReady (s : State) : (s.abandonStart).intakeReady = s.intakeReady := (rfl)
@[simp] theorem State.abandonStart_out (s : State) : (s.abandonStart).out = s.out := (rfl)
@[simp] theorem State.abandonStart_pending (s : State) : (s.abandonStart).pending = s.pending := (rfl)
@[simp] theorem State.arriveStopped_stab (s : State) : (s.arriveStopped).stab = s.stab := (rfl)
@[simp] theorem State.arriveStopped_presented (s : State) : (s.arriveStopped).presented = s.presented := (rfl)
@[simp] theorem State.arriveStopped_idmap (s : State) : (s.arriveStopped).idmap = s.idmap := (rfl)
@[simp] theorem State.arriveStopped_rstore (s : State) : (s.arriveStopped).rstore = s.rstore := (rfl)
@[simp] theorem State.arriveStopped_icls (s : State) : (s.arriveStopped).icls = s.icls := (rfl)
@[simp] theorem State.arriveStopped_resp (s : State) : (s.arriveStopped).resp = s.resp := (rfl)
@[simp] theorem State.arriveStopped_wake (s : State) : (s.arriveStopped).wake = s.wake := (rfl)
@[simp] theorem State.arriveStopped_hold (s : State) : (s.arriveStopped).hold = s.hold := (rfl)
@[simp] theorem State.arriveStopped_emit (s : State) : (s.arriveStopped).emit = s.emit := (rfl)
@[simp] theorem State.arriveStopped_cmde (s : State) : (s.arriveStopped).cmde = s.cmde := (rfl)
@[simp] theorem State.arriveStopped_mport (s : State) : (s.arriveStopped).mport = s.mport := (rfl)
@[simp] theorem State.arriveStopped_nint (s : State) : (s.arriveStopped).nint = s.nint := (rfl)
@[simp] theorem State.arriveStopped_intakeReady (s : State) : (s.arriveStopped).intakeReady = s.intakeReady := (rfl)
@[simp] theorem State.arriveStopped_out (s : State) : (s.arriveStopped).out = s.out := (rfl)
@[simp] theorem State.arriveStopped_pending (s : State) : (s.arriveStopped).pending = s.pending := (rfl)
@[simp] theorem State.setProgress_stab (s : State) (c : Memory) (p : Progress) : (s.setProgress c p).stab = s.stab := (rfl)
@[simp] theorem State.setProgress_presented (s : State) (c : Memory) (p : Progress) : (s.setProgress c p).presented = s.presented := (rfl)
@[simp] theorem State.setProgress_idmap (s : State) (c : Memory) (p : Progress) : (s.setProgress c p).idmap = s.idmap := (rfl)
@[simp] theorem State.setProgress_rstore (s : State) (c : Memory) (p : Progress) : (s.setProgress c p).rstore = s.rstore := (rfl)
@[simp] theorem State.setProgress_icls (s : State) (c : Memory) (p : Progress) : (s.setProgress c p).icls = s.icls := (rfl)
@[simp] theorem State.setProgress_resp (s : State) (c : Memory) (p : Progress) : (s.setProgress c p).resp = s.resp := (rfl)
@[simp] theorem State.setProgress_wake (s : State) (c : Memory) (p : Progress) : (s.setProgress c p).wake = s.wake := (rfl)
@[simp] theorem State.setProgress_hold (s : State) (c : Memory) (p : Progress) : (s.setProgress c p).hold = s.hold := (rfl)
@[simp] theorem State.setProgress_emit (s : State) (c : Memory) (p : Progress) : (s.setProgress c p).emit = s.emit := (rfl)
@[simp] theorem State.setProgress_steer (s : State) (c : Memory) (p : Progress) : (s.setProgress c p).steer = s.steer := (rfl)
@[simp] theorem State.setProgress_nq (s : State) (c : Memory) (p : Progress) : (s.setProgress c p).nq = s.nq := (rfl)
@[simp] theorem State.setProgress_mport (s : State) (c : Memory) (p : Progress) : (s.setProgress c p).mport = s.mport := (rfl)
@[simp] theorem State.setProgress_nint (s : State) (c : Memory) (p : Progress) : (s.setProgress c p).nint = s.nint := (rfl)
@[simp] theorem State.setProgress_intakeReady (s : State) (c : Memory) (p : Progress) : (s.setProgress c p).intakeReady = s.intakeReady := (rfl)
@[simp] theorem State.setProgress_out (s : State) (c : Memory) (p : Progress) : (s.setProgress c p).out = s.out := (rfl)
@[simp] theorem State.setProgress_pending (s : State) (c : Memory) (p : Progress) : (s.setProgress c p).pending = s.pending := (rfl)
@[simp] theorem State.complete_stab (s : State) (c : Memory) (r : Reply) : (s.complete c r).stab = s.stab := (rfl)
@[simp] theorem State.complete_presented (s : State) (c : Memory) (r : Reply) : (s.complete c r).presented = s.presented := (rfl)
@[simp] theorem State.complete_idmap (s : State) (c : Memory) (r : Reply) : (s.complete c r).idmap = s.idmap := (rfl)
@[simp] theorem State.complete_rstore (s : State) (c : Memory) (r : Reply) : (s.complete c r).rstore = s.rstore := (rfl)
@[simp] theorem State.complete_icls (s : State) (c : Memory) (r : Reply) : (s.complete c r).icls = s.icls := (rfl)
@[simp] theorem State.complete_resp (s : State) (c : Memory) (r : Reply) : (s.complete c r).resp = s.resp := (rfl)
@[simp] theorem State.complete_wake (s : State) (c : Memory) (r : Reply) : (s.complete c r).wake = s.wake := (rfl)
@[simp] theorem State.complete_hold (s : State) (c : Memory) (r : Reply) : (s.complete c r).hold = s.hold := (rfl)
@[simp] theorem State.complete_emit (s : State) (c : Memory) (r : Reply) : (s.complete c r).emit = s.emit := (rfl)
@[simp] theorem State.complete_steer (s : State) (c : Memory) (r : Reply) : (s.complete c r).steer = s.steer := (rfl)
@[simp] theorem State.complete_nq (s : State) (c : Memory) (r : Reply) : (s.complete c r).nq = s.nq := (rfl)
@[simp] theorem State.complete_mport (s : State) (c : Memory) (r : Reply) : (s.complete c r).mport = s.mport := (rfl)
@[simp] theorem State.complete_nint (s : State) (c : Memory) (r : Reply) : (s.complete c r).nint = s.nint := (rfl)
@[simp] theorem State.complete_intakeReady (s : State) (c : Memory) (r : Reply) : (s.complete c r).intakeReady = s.intakeReady := (rfl)
@[simp] theorem State.complete_out (s : State) (c : Memory) (r : Reply) : (s.complete c r).out = s.out := (rfl)
@[simp] theorem State.complete_pending (s : State) (c : Memory) (r : Reply) : (s.complete c r).pending = s.pending := (rfl)
@[simp] theorem State.dropAnswer_stab (s : State) (a : DroppedAnswer) (w : DropCause) : (s.dropAnswer a w).stab = s.stab := (rfl)
@[simp] theorem State.dropAnswer_presented (s : State) (a : DroppedAnswer) (w : DropCause) : (s.dropAnswer a w).presented = s.presented := (rfl)
@[simp] theorem State.dropAnswer_idmap (s : State) (a : DroppedAnswer) (w : DropCause) : (s.dropAnswer a w).idmap = s.idmap := (rfl)
@[simp] theorem State.dropAnswer_rstore (s : State) (a : DroppedAnswer) (w : DropCause) : (s.dropAnswer a w).rstore = s.rstore := (rfl)
@[simp] theorem State.dropAnswer_icls (s : State) (a : DroppedAnswer) (w : DropCause) : (s.dropAnswer a w).icls = s.icls := (rfl)
@[simp] theorem State.dropAnswer_resp (s : State) (a : DroppedAnswer) (w : DropCause) : (s.dropAnswer a w).resp = s.resp := (rfl)
@[simp] theorem State.dropAnswer_wake (s : State) (a : DroppedAnswer) (w : DropCause) : (s.dropAnswer a w).wake = s.wake := (rfl)
@[simp] theorem State.dropAnswer_hold (s : State) (a : DroppedAnswer) (w : DropCause) : (s.dropAnswer a w).hold = s.hold := (rfl)
@[simp] theorem State.dropAnswer_emit (s : State) (a : DroppedAnswer) (w : DropCause) : (s.dropAnswer a w).emit = s.emit := (rfl)
@[simp] theorem State.dropAnswer_steer (s : State) (a : DroppedAnswer) (w : DropCause) : (s.dropAnswer a w).steer = s.steer := (rfl)
@[simp] theorem State.dropAnswer_cmde (s : State) (a : DroppedAnswer) (w : DropCause) : (s.dropAnswer a w).cmde = s.cmde := (rfl)
@[simp] theorem State.dropAnswer_mport (s : State) (a : DroppedAnswer) (w : DropCause) : (s.dropAnswer a w).mport = s.mport := (rfl)
@[simp] theorem State.dropAnswer_nint (s : State) (a : DroppedAnswer) (w : DropCause) : (s.dropAnswer a w).nint = s.nint := (rfl)
@[simp] theorem State.dropAnswer_intakeReady (s : State) (a : DroppedAnswer) (w : DropCause) : (s.dropAnswer a w).intakeReady = s.intakeReady := (rfl)
@[simp] theorem State.dropAnswer_out (s : State) (a : DroppedAnswer) (w : DropCause) : (s.dropAnswer a w).out = s.out := (rfl)
@[simp] theorem State.dropAnswer_pending (s : State) (a : DroppedAnswer) (w : DropCause) : (s.dropAnswer a w).pending = s.pending := (rfl)
@[simp] theorem State.popAnswerJob_stab (s : State) : (s.popAnswerJob).stab = s.stab := (rfl)
@[simp] theorem State.popAnswerJob_presented (s : State) : (s.popAnswerJob).presented = s.presented := (rfl)
@[simp] theorem State.popAnswerJob_idmap (s : State) : (s.popAnswerJob).idmap = s.idmap := (rfl)
@[simp] theorem State.popAnswerJob_rstore (s : State) : (s.popAnswerJob).rstore = s.rstore := (rfl)
@[simp] theorem State.popAnswerJob_icls (s : State) : (s.popAnswerJob).icls = s.icls := (rfl)
@[simp] theorem State.popAnswerJob_wake (s : State) : (s.popAnswerJob).wake = s.wake := (rfl)
@[simp] theorem State.popAnswerJob_hold (s : State) : (s.popAnswerJob).hold = s.hold := (rfl)
@[simp] theorem State.popAnswerJob_emit (s : State) : (s.popAnswerJob).emit = s.emit := (rfl)
@[simp] theorem State.popAnswerJob_steer (s : State) : (s.popAnswerJob).steer = s.steer := (rfl)
@[simp] theorem State.popAnswerJob_cmde (s : State) : (s.popAnswerJob).cmde = s.cmde := (rfl)
@[simp] theorem State.popAnswerJob_nq (s : State) : (s.popAnswerJob).nq = s.nq := (rfl)
@[simp] theorem State.popAnswerJob_mport (s : State) : (s.popAnswerJob).mport = s.mport := (rfl)
@[simp] theorem State.popAnswerJob_nint (s : State) : (s.popAnswerJob).nint = s.nint := (rfl)
@[simp] theorem State.popAnswerJob_intakeReady (s : State) : (s.popAnswerJob).intakeReady = s.intakeReady := (rfl)
@[simp] theorem State.popAnswerJob_out (s : State) : (s.popAnswerJob).out = s.out := (rfl)
@[simp] theorem State.popAnswerJob_pending (s : State) : (s.popAnswerJob).pending = s.pending := (rfl)
@[simp] theorem State.present_stab (s : State) (i : Slot) (a : Address) (k : PresentedKind) : (s.present i a k).stab = s.stab := (rfl)
@[simp] theorem State.present_idmap (s : State) (i : Slot) (a : Address) (k : PresentedKind) : (s.present i a k).idmap = s.idmap := (rfl)
@[simp] theorem State.present_rstore (s : State) (i : Slot) (a : Address) (k : PresentedKind) : (s.present i a k).rstore = s.rstore := (rfl)
@[simp] theorem State.present_icls (s : State) (i : Slot) (a : Address) (k : PresentedKind) : (s.present i a k).icls = s.icls := (rfl)
@[simp] theorem State.present_resp (s : State) (i : Slot) (a : Address) (k : PresentedKind) : (s.present i a k).resp = s.resp := (rfl)
@[simp] theorem State.present_wake (s : State) (i : Slot) (a : Address) (k : PresentedKind) : (s.present i a k).wake = s.wake := (rfl)
@[simp] theorem State.present_hold (s : State) (i : Slot) (a : Address) (k : PresentedKind) : (s.present i a k).hold = s.hold := (rfl)
@[simp] theorem State.present_emit (s : State) (i : Slot) (a : Address) (k : PresentedKind) : (s.present i a k).emit = s.emit := (rfl)
@[simp] theorem State.present_steer (s : State) (i : Slot) (a : Address) (k : PresentedKind) : (s.present i a k).steer = s.steer := (rfl)
@[simp] theorem State.present_cmde (s : State) (i : Slot) (a : Address) (k : PresentedKind) : (s.present i a k).cmde = s.cmde := (rfl)
@[simp] theorem State.present_nq (s : State) (i : Slot) (a : Address) (k : PresentedKind) : (s.present i a k).nq = s.nq := (rfl)
@[simp] theorem State.present_mport (s : State) (i : Slot) (a : Address) (k : PresentedKind) : (s.present i a k).mport = s.mport := (rfl)
@[simp] theorem State.present_nint (s : State) (i : Slot) (a : Address) (k : PresentedKind) : (s.present i a k).nint = s.nint := (rfl)
@[simp] theorem State.present_intakeReady (s : State) (i : Slot) (a : Address) (k : PresentedKind) : (s.present i a k).intakeReady = s.intakeReady := (rfl)
@[simp] theorem State.present_out (s : State) (i : Slot) (a : Address) (k : PresentedKind) : (s.present i a k).out = s.out := (rfl)
@[simp] theorem State.present_pending (s : State) (i : Slot) (a : Address) (k : PresentedKind) : (s.present i a k).pending = s.pending := (rfl)
@[simp] theorem State.handAnswer_stab (s : State) (j : AnswerJob) : (s.handAnswer j).stab = s.stab := (rfl)
@[simp] theorem State.handAnswer_presented (s : State) (j : AnswerJob) : (s.handAnswer j).presented = s.presented := (rfl)
@[simp] theorem State.handAnswer_idmap (s : State) (j : AnswerJob) : (s.handAnswer j).idmap = s.idmap := (rfl)
@[simp] theorem State.handAnswer_rstore (s : State) (j : AnswerJob) : (s.handAnswer j).rstore = s.rstore := (rfl)
@[simp] theorem State.handAnswer_icls (s : State) (j : AnswerJob) : (s.handAnswer j).icls = s.icls := (rfl)
@[simp] theorem State.handAnswer_wake (s : State) (j : AnswerJob) : (s.handAnswer j).wake = s.wake := (rfl)
@[simp] theorem State.handAnswer_hold (s : State) (j : AnswerJob) : (s.handAnswer j).hold = s.hold := (rfl)
@[simp] theorem State.handAnswer_emit (s : State) (j : AnswerJob) : (s.handAnswer j).emit = s.emit := (rfl)
@[simp] theorem State.handAnswer_steer (s : State) (j : AnswerJob) : (s.handAnswer j).steer = s.steer := (rfl)
@[simp] theorem State.handAnswer_cmde (s : State) (j : AnswerJob) : (s.handAnswer j).cmde = s.cmde := (rfl)
@[simp] theorem State.handAnswer_nq (s : State) (j : AnswerJob) : (s.handAnswer j).nq = s.nq := (rfl)
@[simp] theorem State.handAnswer_mport (s : State) (j : AnswerJob) : (s.handAnswer j).mport = s.mport := (rfl)
@[simp] theorem State.handAnswer_nint (s : State) (j : AnswerJob) : (s.handAnswer j).nint = s.nint := (rfl)
@[simp] theorem State.handAnswer_intakeReady (s : State) (j : AnswerJob) : (s.handAnswer j).intakeReady = s.intakeReady := (rfl)
@[simp] theorem State.handAnswer_out (s : State) (j : AnswerJob) : (s.handAnswer j).out = s.out := (rfl)
@[simp] theorem State.handAnswer_pending (s : State) (j : AnswerJob) : (s.handAnswer j).pending = s.pending := (rfl)
@[simp] theorem State.endFrame_stab (s : State) (j : Fin 4) (x : IntakeSlot) : (s.endFrame j x).stab = s.stab := (rfl)
@[simp] theorem State.endFrame_presented (s : State) (j : Fin 4) (x : IntakeSlot) : (s.endFrame j x).presented = s.presented := (rfl)
@[simp] theorem State.endFrame_idmap (s : State) (j : Fin 4) (x : IntakeSlot) : (s.endFrame j x).idmap = s.idmap := (rfl)
@[simp] theorem State.endFrame_rstore (s : State) (j : Fin 4) (x : IntakeSlot) : (s.endFrame j x).rstore = s.rstore := (rfl)
@[simp] theorem State.endFrame_resp (s : State) (j : Fin 4) (x : IntakeSlot) : (s.endFrame j x).resp = s.resp := (rfl)
@[simp] theorem State.endFrame_wake (s : State) (j : Fin 4) (x : IntakeSlot) : (s.endFrame j x).wake = s.wake := (rfl)
@[simp] theorem State.endFrame_hold (s : State) (j : Fin 4) (x : IntakeSlot) : (s.endFrame j x).hold = s.hold := (rfl)
@[simp] theorem State.endFrame_emit (s : State) (j : Fin 4) (x : IntakeSlot) : (s.endFrame j x).emit = s.emit := (rfl)
@[simp] theorem State.endFrame_steer (s : State) (j : Fin 4) (x : IntakeSlot) : (s.endFrame j x).steer = s.steer := (rfl)
@[simp] theorem State.endFrame_cmde (s : State) (j : Fin 4) (x : IntakeSlot) : (s.endFrame j x).cmde = s.cmde := (rfl)
@[simp] theorem State.endFrame_nq (s : State) (j : Fin 4) (x : IntakeSlot) : (s.endFrame j x).nq = s.nq := (rfl)
@[simp] theorem State.endFrame_mport (s : State) (j : Fin 4) (x : IntakeSlot) : (s.endFrame j x).mport = s.mport := (rfl)
@[simp] theorem State.endFrame_nint (s : State) (j : Fin 4) (x : IntakeSlot) : (s.endFrame j x).nint = s.nint := (rfl)
@[simp] theorem State.endFrame_intakeReady (s : State) (j : Fin 4) (x : IntakeSlot) : (s.endFrame j x).intakeReady = s.intakeReady := (rfl)
@[simp] theorem State.endFrame_out (s : State) (j : Fin 4) (x : IntakeSlot) : (s.endFrame j x).out = s.out := (rfl)
@[simp] theorem State.endFrame_pending (s : State) (j : Fin 4) (x : IntakeSlot) : (s.endFrame j x).pending = s.pending := (rfl)
@[simp] theorem State.nextTest_stab (s : State) (q : Option Slot) (n : NextTest) : (s.nextTest q n).stab = s.stab := (rfl)
@[simp] theorem State.nextTest_presented (s : State) (q : Option Slot) (n : NextTest) : (s.nextTest q n).presented = s.presented := (rfl)
@[simp] theorem State.nextTest_idmap (s : State) (q : Option Slot) (n : NextTest) : (s.nextTest q n).idmap = s.idmap := (rfl)
@[simp] theorem State.nextTest_rstore (s : State) (q : Option Slot) (n : NextTest) : (s.nextTest q n).rstore = s.rstore := (rfl)
@[simp] theorem State.nextTest_resp (s : State) (q : Option Slot) (n : NextTest) : (s.nextTest q n).resp = s.resp := (rfl)
@[simp] theorem State.nextTest_wake (s : State) (q : Option Slot) (n : NextTest) : (s.nextTest q n).wake = s.wake := (rfl)
@[simp] theorem State.nextTest_hold (s : State) (q : Option Slot) (n : NextTest) : (s.nextTest q n).hold = s.hold := (rfl)
@[simp] theorem State.nextTest_emit (s : State) (q : Option Slot) (n : NextTest) : (s.nextTest q n).emit = s.emit := (rfl)
@[simp] theorem State.nextTest_steer (s : State) (q : Option Slot) (n : NextTest) : (s.nextTest q n).steer = s.steer := (rfl)
@[simp] theorem State.nextTest_cmde (s : State) (q : Option Slot) (n : NextTest) : (s.nextTest q n).cmde = s.cmde := (rfl)
@[simp] theorem State.nextTest_nq (s : State) (q : Option Slot) (n : NextTest) : (s.nextTest q n).nq = s.nq := (rfl)
@[simp] theorem State.nextTest_mport (s : State) (q : Option Slot) (n : NextTest) : (s.nextTest q n).mport = s.mport := (rfl)
@[simp] theorem State.nextTest_nint (s : State) (q : Option Slot) (n : NextTest) : (s.nextTest q n).nint = s.nint := (rfl)
@[simp] theorem State.nextTest_intakeReady (s : State) (q : Option Slot) (n : NextTest) : (s.nextTest q n).intakeReady = s.intakeReady := (rfl)
@[simp] theorem State.nextTest_out (s : State) (q : Option Slot) (n : NextTest) : (s.nextTest q n).out = s.out := (rfl)
@[simp] theorem State.nextTest_pending (s : State) (q : Option Slot) (n : NextTest) : (s.nextTest q n).pending = s.pending := (rfl)
@[simp] theorem State.popPresented_stab (s : State) (i : Slot) : (s.popPresented i).stab = s.stab := (rfl)
@[simp] theorem State.popPresented_idmap (s : State) (i : Slot) : (s.popPresented i).idmap = s.idmap := (rfl)
@[simp] theorem State.popPresented_rstore (s : State) (i : Slot) : (s.popPresented i).rstore = s.rstore := (rfl)
@[simp] theorem State.popPresented_icls (s : State) (i : Slot) : (s.popPresented i).icls = s.icls := (rfl)
@[simp] theorem State.popPresented_resp (s : State) (i : Slot) : (s.popPresented i).resp = s.resp := (rfl)
@[simp] theorem State.popPresented_wake (s : State) (i : Slot) : (s.popPresented i).wake = s.wake := (rfl)
@[simp] theorem State.popPresented_hold (s : State) (i : Slot) : (s.popPresented i).hold = s.hold := (rfl)
@[simp] theorem State.popPresented_emit (s : State) (i : Slot) : (s.popPresented i).emit = s.emit := (rfl)
@[simp] theorem State.popPresented_steer (s : State) (i : Slot) : (s.popPresented i).steer = s.steer := (rfl)
@[simp] theorem State.popPresented_cmde (s : State) (i : Slot) : (s.popPresented i).cmde = s.cmde := (rfl)
@[simp] theorem State.popPresented_nq (s : State) (i : Slot) : (s.popPresented i).nq = s.nq := (rfl)
@[simp] theorem State.popPresented_mport (s : State) (i : Slot) : (s.popPresented i).mport = s.mport := (rfl)
@[simp] theorem State.popPresented_nint (s : State) (i : Slot) : (s.popPresented i).nint = s.nint := (rfl)
@[simp] theorem State.popPresented_intakeReady (s : State) (i : Slot) : (s.popPresented i).intakeReady = s.intakeReady := (rfl)
@[simp] theorem State.popPresented_out (s : State) (i : Slot) : (s.popPresented i).out = s.out := (rfl)
@[simp] theorem State.popPresented_pending (s : State) (i : Slot) : (s.popPresented i).pending = s.pending := (rfl)
@[simp] theorem State.endTransfer_stab (s : State) (t : Transfer) (e : TransferEnd) : (s.endTransfer t e).stab = s.stab := (rfl)
@[simp] theorem State.endTransfer_presented (s : State) (t : Transfer) (e : TransferEnd) : (s.endTransfer t e).presented = s.presented := (rfl)
@[simp] theorem State.endTransfer_idmap (s : State) (t : Transfer) (e : TransferEnd) : (s.endTransfer t e).idmap = s.idmap := (rfl)
@[simp] theorem State.endTransfer_rstore (s : State) (t : Transfer) (e : TransferEnd) : (s.endTransfer t e).rstore = s.rstore := (rfl)
@[simp] theorem State.endTransfer_icls (s : State) (t : Transfer) (e : TransferEnd) : (s.endTransfer t e).icls = s.icls := (rfl)
@[simp] theorem State.endTransfer_resp (s : State) (t : Transfer) (e : TransferEnd) : (s.endTransfer t e).resp = s.resp := (rfl)
@[simp] theorem State.endTransfer_wake (s : State) (t : Transfer) (e : TransferEnd) : (s.endTransfer t e).wake = s.wake := (rfl)
@[simp] theorem State.endTransfer_hold (s : State) (t : Transfer) (e : TransferEnd) : (s.endTransfer t e).hold = s.hold := (rfl)
@[simp] theorem State.endTransfer_emit (s : State) (t : Transfer) (e : TransferEnd) : (s.endTransfer t e).emit = s.emit := (rfl)
@[simp] theorem State.endTransfer_steer (s : State) (t : Transfer) (e : TransferEnd) : (s.endTransfer t e).steer = s.steer := (rfl)
@[simp] theorem State.endTransfer_cmde (s : State) (t : Transfer) (e : TransferEnd) : (s.endTransfer t e).cmde = s.cmde := (rfl)
@[simp] theorem State.endTransfer_nq (s : State) (t : Transfer) (e : TransferEnd) : (s.endTransfer t e).nq = s.nq := (rfl)
@[simp] theorem State.endTransfer_mport (s : State) (t : Transfer) (e : TransferEnd) : (s.endTransfer t e).mport = s.mport := (rfl)
@[simp] theorem State.endTransfer_nint (s : State) (t : Transfer) (e : TransferEnd) : (s.endTransfer t e).nint = s.nint := (rfl)
@[simp] theorem State.endTransfer_intakeReady (s : State) (t : Transfer) (e : TransferEnd) : (s.endTransfer t e).intakeReady = s.intakeReady := (rfl)
@[simp] theorem State.endTransfer_pending (s : State) (t : Transfer) (e : TransferEnd) : (s.endTransfer t e).pending = s.pending := (rfl)
@[simp] theorem State.passSeconds_presented (s : State) (n : Nat) : (s.passSeconds n).presented = s.presented := (rfl)
@[simp] theorem State.passSeconds_idmap (s : State) (n : Nat) : (s.passSeconds n).idmap = s.idmap := (rfl)
@[simp] theorem State.passSeconds_rstore (s : State) (n : Nat) : (s.passSeconds n).rstore = s.rstore := (rfl)
@[simp] theorem State.passSeconds_icls (s : State) (n : Nat) : (s.passSeconds n).icls = s.icls := (rfl)
@[simp] theorem State.passSeconds_resp (s : State) (n : Nat) : (s.passSeconds n).resp = s.resp := (rfl)
@[simp] theorem State.passSeconds_wake (s : State) (n : Nat) : (s.passSeconds n).wake = s.wake := (rfl)
@[simp] theorem State.passSeconds_hold (s : State) (n : Nat) : (s.passSeconds n).hold = s.hold := (rfl)
@[simp] theorem State.passSeconds_emit (s : State) (n : Nat) : (s.passSeconds n).emit = s.emit := (rfl)
@[simp] theorem State.passSeconds_steer (s : State) (n : Nat) : (s.passSeconds n).steer = s.steer := (rfl)
@[simp] theorem State.passSeconds_cmde (s : State) (n : Nat) : (s.passSeconds n).cmde = s.cmde := (rfl)
@[simp] theorem State.passSeconds_nq (s : State) (n : Nat) : (s.passSeconds n).nq = s.nq := (rfl)
@[simp] theorem State.passSeconds_mport (s : State) (n : Nat) : (s.passSeconds n).mport = s.mport := (rfl)
@[simp] theorem State.passSeconds_nint (s : State) (n : Nat) : (s.passSeconds n).nint = s.nint := (rfl)
@[simp] theorem State.passSeconds_intakeReady (s : State) (n : Nat) : (s.passSeconds n).intakeReady = s.intakeReady := (rfl)
@[simp] theorem State.passSeconds_out (s : State) (n : Nat) : (s.passSeconds n).out = s.out := (rfl)
@[simp] theorem State.passSeconds_pending (s : State) (n : Nat) : (s.passSeconds n).pending = s.pending := (rfl)
@[simp] theorem State.passUnits_stab (s : State) (n : Nat) : (s.passUnits n).stab = s.stab := (rfl)
@[simp] theorem State.passUnits_presented (s : State) (n : Nat) : (s.passUnits n).presented = s.presented := (rfl)
@[simp] theorem State.passUnits_idmap (s : State) (n : Nat) : (s.passUnits n).idmap = s.idmap := (rfl)
@[simp] theorem State.passUnits_rstore (s : State) (n : Nat) : (s.passUnits n).rstore = s.rstore := (rfl)
@[simp] theorem State.passUnits_icls (s : State) (n : Nat) : (s.passUnits n).icls = s.icls := (rfl)
@[simp] theorem State.passUnits_resp (s : State) (n : Nat) : (s.passUnits n).resp = s.resp := (rfl)
@[simp] theorem State.passUnits_hold (s : State) (n : Nat) : (s.passUnits n).hold = s.hold := (rfl)
@[simp] theorem State.passUnits_emit (s : State) (n : Nat) : (s.passUnits n).emit = s.emit := (rfl)
@[simp] theorem State.passUnits_steer (s : State) (n : Nat) : (s.passUnits n).steer = s.steer := (rfl)
@[simp] theorem State.passUnits_cmde (s : State) (n : Nat) : (s.passUnits n).cmde = s.cmde := (rfl)
@[simp] theorem State.passUnits_nq (s : State) (n : Nat) : (s.passUnits n).nq = s.nq := (rfl)
@[simp] theorem State.passUnits_mport (s : State) (n : Nat) : (s.passUnits n).mport = s.mport := (rfl)
@[simp] theorem State.passUnits_nint (s : State) (n : Nat) : (s.passUnits n).nint = s.nint := (rfl)
@[simp] theorem State.passUnits_intakeReady (s : State) (n : Nat) : (s.passUnits n).intakeReady = s.intakeReady := (rfl)
@[simp] theorem State.passUnits_out (s : State) (n : Nat) : (s.passUnits n).out = s.out := (rfl)
@[simp] theorem State.passUnits_pending (s : State) (n : Nat) : (s.passUnits n).pending = s.pending := (rfl)
@[simp] theorem State.attachRule_presented (s : State) (i : Slot) (st : Station) (n : RuleNumber) : (s.attachRule i st n).presented = s.presented := (rfl)
@[simp] theorem State.attachRule_idmap (s : State) (i : Slot) (st : Station) (n : RuleNumber) : (s.attachRule i st n).idmap = s.idmap := (rfl)
@[simp] theorem State.attachRule_icls (s : State) (i : Slot) (st : Station) (n : RuleNumber) : (s.attachRule i st n).icls = s.icls := (rfl)
@[simp] theorem State.attachRule_resp (s : State) (i : Slot) (st : Station) (n : RuleNumber) : (s.attachRule i st n).resp = s.resp := (rfl)
@[simp] theorem State.attachRule_wake (s : State) (i : Slot) (st : Station) (n : RuleNumber) : (s.attachRule i st n).wake = s.wake := (rfl)
@[simp] theorem State.attachRule_hold (s : State) (i : Slot) (st : Station) (n : RuleNumber) : (s.attachRule i st n).hold = s.hold := (rfl)
@[simp] theorem State.attachRule_emit (s : State) (i : Slot) (st : Station) (n : RuleNumber) : (s.attachRule i st n).emit = s.emit := (rfl)
@[simp] theorem State.attachRule_steer (s : State) (i : Slot) (st : Station) (n : RuleNumber) : (s.attachRule i st n).steer = s.steer := (rfl)
@[simp] theorem State.attachRule_cmde (s : State) (i : Slot) (st : Station) (n : RuleNumber) : (s.attachRule i st n).cmde = s.cmde := (rfl)
@[simp] theorem State.attachRule_nq (s : State) (i : Slot) (st : Station) (n : RuleNumber) : (s.attachRule i st n).nq = s.nq := (rfl)
@[simp] theorem State.attachRule_mport (s : State) (i : Slot) (st : Station) (n : RuleNumber) : (s.attachRule i st n).mport = s.mport := (rfl)
@[simp] theorem State.attachRule_nint (s : State) (i : Slot) (st : Station) (n : RuleNumber) : (s.attachRule i st n).nint = s.nint := (rfl)
@[simp] theorem State.attachRule_intakeReady (s : State) (i : Slot) (st : Station) (n : RuleNumber) : (s.attachRule i st n).intakeReady = s.intakeReady := (rfl)
@[simp] theorem State.attachRule_out (s : State) (i : Slot) (st : Station) (n : RuleNumber) : (s.attachRule i st n).out = s.out := (rfl)
@[simp] theorem State.attachRule_pending (s : State) (i : Slot) (st : Station) (n : RuleNumber) : (s.attachRule i st n).pending = s.pending := (rfl)
@[simp] theorem State.detachRule_presented (s : State) (i : Slot) (st : Station) (n : RuleNumber) : (s.detachRule i st n).presented = s.presented := (rfl)
@[simp] theorem State.detachRule_idmap (s : State) (i : Slot) (st : Station) (n : RuleNumber) : (s.detachRule i st n).idmap = s.idmap := (rfl)
@[simp] theorem State.detachRule_icls (s : State) (i : Slot) (st : Station) (n : RuleNumber) : (s.detachRule i st n).icls = s.icls := (rfl)
@[simp] theorem State.detachRule_resp (s : State) (i : Slot) (st : Station) (n : RuleNumber) : (s.detachRule i st n).resp = s.resp := (rfl)
@[simp] theorem State.detachRule_wake (s : State) (i : Slot) (st : Station) (n : RuleNumber) : (s.detachRule i st n).wake = s.wake := (rfl)
@[simp] theorem State.detachRule_hold (s : State) (i : Slot) (st : Station) (n : RuleNumber) : (s.detachRule i st n).hold = s.hold := (rfl)
@[simp] theorem State.detachRule_emit (s : State) (i : Slot) (st : Station) (n : RuleNumber) : (s.detachRule i st n).emit = s.emit := (rfl)
@[simp] theorem State.detachRule_steer (s : State) (i : Slot) (st : Station) (n : RuleNumber) : (s.detachRule i st n).steer = s.steer := (rfl)
@[simp] theorem State.detachRule_cmde (s : State) (i : Slot) (st : Station) (n : RuleNumber) : (s.detachRule i st n).cmde = s.cmde := (rfl)
@[simp] theorem State.detachRule_nq (s : State) (i : Slot) (st : Station) (n : RuleNumber) : (s.detachRule i st n).nq = s.nq := (rfl)
@[simp] theorem State.detachRule_mport (s : State) (i : Slot) (st : Station) (n : RuleNumber) : (s.detachRule i st n).mport = s.mport := (rfl)
@[simp] theorem State.detachRule_nint (s : State) (i : Slot) (st : Station) (n : RuleNumber) : (s.detachRule i st n).nint = s.nint := (rfl)
@[simp] theorem State.detachRule_intakeReady (s : State) (i : Slot) (st : Station) (n : RuleNumber) : (s.detachRule i st n).intakeReady = s.intakeReady := (rfl)
@[simp] theorem State.detachRule_out (s : State) (i : Slot) (st : Station) (n : RuleNumber) : (s.detachRule i st n).out = s.out := (rfl)
@[simp] theorem State.detachRule_pending (s : State) (i : Slot) (st : Station) (n : RuleNumber) : (s.detachRule i st n).pending = s.pending := (rfl)
@[simp] theorem State.addIdentifier_presented (s : State) (i : Slot) (st : Station) (id : Identifier) (f : Bool) : (s.addIdentifier i st id f).presented = s.presented := (rfl)
@[simp] theorem State.addIdentifier_rstore (s : State) (i : Slot) (st : Station) (id : Identifier) (f : Bool) : (s.addIdentifier i st id f).rstore = s.rstore := (rfl)
@[simp] theorem State.addIdentifier_icls (s : State) (i : Slot) (st : Station) (id : Identifier) (f : Bool) : (s.addIdentifier i st id f).icls = s.icls := (rfl)
@[simp] theorem State.addIdentifier_resp (s : State) (i : Slot) (st : Station) (id : Identifier) (f : Bool) : (s.addIdentifier i st id f).resp = s.resp := (rfl)
@[simp] theorem State.addIdentifier_wake (s : State) (i : Slot) (st : Station) (id : Identifier) (f : Bool) : (s.addIdentifier i st id f).wake = s.wake := (rfl)
@[simp] theorem State.addIdentifier_hold (s : State) (i : Slot) (st : Station) (id : Identifier) (f : Bool) : (s.addIdentifier i st id f).hold = s.hold := (rfl)
@[simp] theorem State.addIdentifier_emit (s : State) (i : Slot) (st : Station) (id : Identifier) (f : Bool) : (s.addIdentifier i st id f).emit = s.emit := (rfl)
@[simp] theorem State.addIdentifier_steer (s : State) (i : Slot) (st : Station) (id : Identifier) (f : Bool) : (s.addIdentifier i st id f).steer = s.steer := (rfl)
@[simp] theorem State.addIdentifier_cmde (s : State) (i : Slot) (st : Station) (id : Identifier) (f : Bool) : (s.addIdentifier i st id f).cmde = s.cmde := (rfl)
@[simp] theorem State.addIdentifier_nq (s : State) (i : Slot) (st : Station) (id : Identifier) (f : Bool) : (s.addIdentifier i st id f).nq = s.nq := (rfl)
@[simp] theorem State.addIdentifier_mport (s : State) (i : Slot) (st : Station) (id : Identifier) (f : Bool) : (s.addIdentifier i st id f).mport = s.mport := (rfl)
@[simp] theorem State.addIdentifier_nint (s : State) (i : Slot) (st : Station) (id : Identifier) (f : Bool) : (s.addIdentifier i st id f).nint = s.nint := (rfl)
@[simp] theorem State.addIdentifier_intakeReady (s : State) (i : Slot) (st : Station) (id : Identifier) (f : Bool) : (s.addIdentifier i st id f).intakeReady = s.intakeReady := (rfl)
@[simp] theorem State.addIdentifier_out (s : State) (i : Slot) (st : Station) (id : Identifier) (f : Bool) : (s.addIdentifier i st id f).out = s.out := (rfl)
@[simp] theorem State.addIdentifier_pending (s : State) (i : Slot) (st : Station) (id : Identifier) (f : Bool) : (s.addIdentifier i st id f).pending = s.pending := (rfl)
@[simp] theorem State.removeIdentifier_presented (s : State) (i : Slot) (st : Station) (id : Identifier) : (s.removeIdentifier i st id).presented = s.presented := (rfl)
@[simp] theorem State.removeIdentifier_rstore (s : State) (i : Slot) (st : Station) (id : Identifier) : (s.removeIdentifier i st id).rstore = s.rstore := (rfl)
@[simp] theorem State.removeIdentifier_icls (s : State) (i : Slot) (st : Station) (id : Identifier) : (s.removeIdentifier i st id).icls = s.icls := (rfl)
@[simp] theorem State.removeIdentifier_resp (s : State) (i : Slot) (st : Station) (id : Identifier) : (s.removeIdentifier i st id).resp = s.resp := (rfl)
@[simp] theorem State.removeIdentifier_wake (s : State) (i : Slot) (st : Station) (id : Identifier) : (s.removeIdentifier i st id).wake = s.wake := (rfl)
@[simp] theorem State.removeIdentifier_hold (s : State) (i : Slot) (st : Station) (id : Identifier) : (s.removeIdentifier i st id).hold = s.hold := (rfl)
@[simp] theorem State.removeIdentifier_emit (s : State) (i : Slot) (st : Station) (id : Identifier) : (s.removeIdentifier i st id).emit = s.emit := (rfl)
@[simp] theorem State.removeIdentifier_steer (s : State) (i : Slot) (st : Station) (id : Identifier) : (s.removeIdentifier i st id).steer = s.steer := (rfl)
@[simp] theorem State.removeIdentifier_cmde (s : State) (i : Slot) (st : Station) (id : Identifier) : (s.removeIdentifier i st id).cmde = s.cmde := (rfl)
@[simp] theorem State.removeIdentifier_nq (s : State) (i : Slot) (st : Station) (id : Identifier) : (s.removeIdentifier i st id).nq = s.nq := (rfl)
@[simp] theorem State.removeIdentifier_mport (s : State) (i : Slot) (st : Station) (id : Identifier) : (s.removeIdentifier i st id).mport = s.mport := (rfl)
@[simp] theorem State.removeIdentifier_nint (s : State) (i : Slot) (st : Station) (id : Identifier) : (s.removeIdentifier i st id).nint = s.nint := (rfl)
@[simp] theorem State.removeIdentifier_intakeReady (s : State) (i : Slot) (st : Station) (id : Identifier) : (s.removeIdentifier i st id).intakeReady = s.intakeReady := (rfl)
@[simp] theorem State.removeIdentifier_out (s : State) (i : Slot) (st : Station) (id : Identifier) : (s.removeIdentifier i st id).out = s.out := (rfl)
@[simp] theorem State.removeIdentifier_pending (s : State) (i : Slot) (st : Station) (id : Identifier) : (s.removeIdentifier i st id).pending = s.pending := (rfl)
@[simp] theorem State.vacate_presented (s : State) (i : Slot) (st : Station) : (s.vacate i st).presented = s.presented := (rfl)
@[simp] theorem State.vacate_icls (s : State) (i : Slot) (st : Station) : (s.vacate i st).icls = s.icls := (rfl)
@[simp] theorem State.vacate_resp (s : State) (i : Slot) (st : Station) : (s.vacate i st).resp = s.resp := (rfl)
@[simp] theorem State.vacate_wake (s : State) (i : Slot) (st : Station) : (s.vacate i st).wake = s.wake := (rfl)
@[simp] theorem State.vacate_hold (s : State) (i : Slot) (st : Station) : (s.vacate i st).hold = s.hold := (rfl)
@[simp] theorem State.vacate_emit (s : State) (i : Slot) (st : Station) : (s.vacate i st).emit = s.emit := (rfl)
@[simp] theorem State.vacate_steer (s : State) (i : Slot) (st : Station) : (s.vacate i st).steer = s.steer := (rfl)
@[simp] theorem State.vacate_cmde (s : State) (i : Slot) (st : Station) : (s.vacate i st).cmde = s.cmde := (rfl)
@[simp] theorem State.vacate_mport (s : State) (i : Slot) (st : Station) : (s.vacate i st).mport = s.mport := (rfl)
@[simp] theorem State.vacate_nint (s : State) (i : Slot) (st : Station) : (s.vacate i st).nint = s.nint := (rfl)
@[simp] theorem State.vacate_intakeReady (s : State) (i : Slot) (st : Station) : (s.vacate i st).intakeReady = s.intakeReady := (rfl)
@[simp] theorem State.vacate_out (s : State) (i : Slot) (st : Station) : (s.vacate i st).out = s.out := (rfl)
@[simp] theorem State.vacate_pending (s : State) (i : Slot) (st : Station) : (s.vacate i st).pending = s.pending := (rfl)
@[simp] theorem State.shedFrame_stab (s : State) (j : Fin 4) (i : Slot) (st : Station) : (s.shedFrame j i st).stab = s.stab := (rfl)
@[simp] theorem State.shedFrame_idmap (s : State) (j : Fin 4) (i : Slot) (st : Station) : (s.shedFrame j i st).idmap = s.idmap := (rfl)
@[simp] theorem State.shedFrame_rstore (s : State) (j : Fin 4) (i : Slot) (st : Station) : (s.shedFrame j i st).rstore = s.rstore := (rfl)
@[simp] theorem State.shedFrame_resp (s : State) (j : Fin 4) (i : Slot) (st : Station) : (s.shedFrame j i st).resp = s.resp := (rfl)
@[simp] theorem State.shedFrame_wake (s : State) (j : Fin 4) (i : Slot) (st : Station) : (s.shedFrame j i st).wake = s.wake := (rfl)
@[simp] theorem State.shedFrame_hold (s : State) (j : Fin 4) (i : Slot) (st : Station) : (s.shedFrame j i st).hold = s.hold := (rfl)
@[simp] theorem State.shedFrame_emit (s : State) (j : Fin 4) (i : Slot) (st : Station) : (s.shedFrame j i st).emit = s.emit := (rfl)
@[simp] theorem State.shedFrame_steer (s : State) (j : Fin 4) (i : Slot) (st : Station) : (s.shedFrame j i st).steer = s.steer := (rfl)
@[simp] theorem State.shedFrame_cmde (s : State) (j : Fin 4) (i : Slot) (st : Station) : (s.shedFrame j i st).cmde = s.cmde := (rfl)
@[simp] theorem State.shedFrame_nq (s : State) (j : Fin 4) (i : Slot) (st : Station) : (s.shedFrame j i st).nq = s.nq := (rfl)
@[simp] theorem State.shedFrame_mport (s : State) (j : Fin 4) (i : Slot) (st : Station) : (s.shedFrame j i st).mport = s.mport := (rfl)
@[simp] theorem State.shedFrame_nint (s : State) (j : Fin 4) (i : Slot) (st : Station) : (s.shedFrame j i st).nint = s.nint := (rfl)
@[simp] theorem State.shedFrame_intakeReady (s : State) (j : Fin 4) (i : Slot) (st : Station) : (s.shedFrame j i st).intakeReady = s.intakeReady := (rfl)
@[simp] theorem State.shedFrame_out (s : State) (j : Fin 4) (i : Slot) (st : Station) : (s.shedFrame j i st).out = s.out := (rfl)
@[simp] theorem State.shedFrame_pending (s : State) (j : Fin 4) (i : Slot) (st : Station) : (s.shedFrame j i st).pending = s.pending := (rfl)

@[simp] theorem State.footed_stab (s : State) : (s.footed).stab = s.stab := (rfl)
@[simp] theorem State.footed_presented (s : State) : (s.footed).presented = s.presented := (rfl)
@[simp] theorem State.footed_idmap (s : State) : (s.footed).idmap = s.idmap := (rfl)
@[simp] theorem State.footed_rstore (s : State) : (s.footed).rstore = s.rstore := (rfl)
@[simp] theorem State.footed_icls (s : State) : (s.footed).icls = s.icls := (rfl)
@[simp] theorem State.footed_resp (s : State) : (s.footed).resp = s.resp := (rfl)
@[simp] theorem State.footed_wake (s : State) : (s.footed).wake = s.wake := (rfl)
@[simp] theorem State.footed_hold (s : State) : (s.footed).hold = s.hold := (rfl)
@[simp] theorem State.footed_emit (s : State) : (s.footed).emit = s.emit := (rfl)
@[simp] theorem State.footed_steer (s : State) : (s.footed).steer = { s.steer with footing := true } := (rfl)
@[simp] theorem State.footed_cmde (s : State) : (s.footed).cmde = s.cmde := (rfl)
@[simp] theorem State.footed_nq (s : State) : (s.footed).nq = s.nq := (rfl)
@[simp] theorem State.footed_mport (s : State) : (s.footed).mport = s.mport := (rfl)
@[simp] theorem State.footed_nint (s : State) : (s.footed).nint = s.nint := (rfl)
@[simp] theorem State.footed_intakeReady (s : State) : (s.footed).intakeReady = s.intakeReady := (rfl)
@[simp] theorem State.footed_out (s : State) : (s.footed).out = s.out := (rfl)
@[simp] theorem State.footed_pending (s : State) : (s.footed).pending = s.pending := (rfl)
@[simp] theorem State.endMessage_stab (s : State) : (s.endMessage).stab = s.stab := (rfl)
@[simp] theorem State.endMessage_presented (s : State) : (s.endMessage).presented = s.presented := (rfl)
@[simp] theorem State.endMessage_idmap (s : State) : (s.endMessage).idmap = s.idmap := (rfl)
@[simp] theorem State.endMessage_rstore (s : State) : (s.endMessage).rstore = s.rstore := (rfl)
@[simp] theorem State.endMessage_icls (s : State) : (s.endMessage).icls = s.icls := (rfl)
@[simp] theorem State.endMessage_resp (s : State) : (s.endMessage).resp = s.resp := (rfl)
@[simp] theorem State.endMessage_wake (s : State) : (s.endMessage).wake = s.wake := (rfl)
@[simp] theorem State.endMessage_hold (s : State) : (s.endMessage).hold = s.hold := (rfl)
@[simp] theorem State.endMessage_emit (s : State) : (s.endMessage).emit = s.emit := (rfl)
@[simp] theorem State.endMessage_steer (s : State) : (s.endMessage).steer = s.steer := (rfl)
@[simp] theorem State.endMessage_cmde (s : State) : (s.endMessage).cmde = s.cmde := (rfl)
@[simp] theorem State.endMessage_nq (s : State) : (s.endMessage).nq = s.nq := (rfl)
@[simp] theorem State.endMessage_mport (s : State) : (s.endMessage).mport = s.mport := (rfl)
@[simp] theorem State.endMessage_nint (s : State) : (s.endMessage).nint = s.nint := (rfl)
@[simp] theorem State.endMessage_intakeReady (s : State) : (s.endMessage).intakeReady = s.intakeReady := (rfl)
@[simp] theorem State.endMessage_out (s : State) : (s.endMessage).out = s.out.endMessage .whole := (rfl)
@[simp] theorem State.endMessage_pending (s : State) : (s.endMessage).pending = s.pending := (rfl)
@[simp] theorem State.holdTransaction_stab (s : State) (x : SpiTransaction) : (s.holdTransaction x).stab = s.stab := (rfl)
@[simp] theorem State.holdTransaction_presented (s : State) (x : SpiTransaction) : (s.holdTransaction x).presented = s.presented := (rfl)
@[simp] theorem State.holdTransaction_idmap (s : State) (x : SpiTransaction) : (s.holdTransaction x).idmap = s.idmap := (rfl)
@[simp] theorem State.holdTransaction_rstore (s : State) (x : SpiTransaction) : (s.holdTransaction x).rstore = s.rstore := (rfl)
@[simp] theorem State.holdTransaction_icls (s : State) (x : SpiTransaction) : (s.holdTransaction x).icls = s.icls := (rfl)
@[simp] theorem State.holdTransaction_resp (s : State) (x : SpiTransaction) : (s.holdTransaction x).resp = s.resp := (rfl)
@[simp] theorem State.holdTransaction_wake (s : State) (x : SpiTransaction) : (s.holdTransaction x).wake = s.wake := (rfl)
@[simp] theorem State.holdTransaction_hold (s : State) (x : SpiTransaction) : (s.holdTransaction x).hold = s.hold := (rfl)
@[simp] theorem State.holdTransaction_emit (s : State) (x : SpiTransaction) : (s.holdTransaction x).emit = s.emit := (rfl)
@[simp] theorem State.holdTransaction_steer (s : State) (x : SpiTransaction) : (s.holdTransaction x).steer = s.steer := (rfl)
@[simp] theorem State.holdTransaction_cmde (s : State) (x : SpiTransaction) : (s.holdTransaction x).cmde = s.cmde := (rfl)
@[simp] theorem State.holdTransaction_nq (s : State) (x : SpiTransaction) : (s.holdTransaction x).nq = s.nq := (rfl)
@[simp] theorem State.holdTransaction_mport (s : State) (x : SpiTransaction) : (s.holdTransaction x).mport = { s.mport with spi := some x } := (rfl)
@[simp] theorem State.holdTransaction_nint (s : State) (x : SpiTransaction) : (s.holdTransaction x).nint = s.nint := (rfl)
@[simp] theorem State.holdTransaction_intakeReady (s : State) (x : SpiTransaction) : (s.holdTransaction x).intakeReady = s.intakeReady := (rfl)
@[simp] theorem State.holdTransaction_out (s : State) (x : SpiTransaction) : (s.holdTransaction x).out = s.out := (rfl)
@[simp] theorem State.holdTransaction_pending (s : State) (x : SpiTransaction) : (s.holdTransaction x).pending = s.pending := (rfl)

end Sys2Proof.Machine
end

