-- ==== Sys2Proof/Laws/Frames.lean ====
section
/-! SUPPORT. The frames of the operations built from updates: one lemma for each operation, naming every field it leaves as it was. -/

namespace Sys2Proof.Machine

@[simp] theorem State.updateStation_frame (s : State) (i : Slot) (f : Station → Station) :
    (s.updateStation i f).presented = s.presented ∧ (s.updateStation i f).idmap = s.idmap ∧
    (s.updateStation i f).rstore = s.rstore ∧ (s.updateStation i f).icls = s.icls ∧
    (s.updateStation i f).resp = s.resp ∧ (s.updateStation i f).wake = s.wake ∧
    (s.updateStation i f).hold = s.hold ∧ (s.updateStation i f).emit = s.emit ∧
    (s.updateStation i f).steer = s.steer ∧ (s.updateStation i f).cmde = s.cmde ∧
    (s.updateStation i f).nq = s.nq ∧ (s.updateStation i f).mport = s.mport ∧
    (s.updateStation i f).nint = s.nint ∧ (s.updateStation i f).intakeReady = s.intakeReady ∧
    (s.updateStation i f).out = s.out ∧ (s.updateStation i f).pending = s.pending := by
  unfold State.updateStation; split <;> simp

@[simp] theorem State.setStationState_frame (s : State) (i : Slot) (q : StationState) :
    (s.setStationState i q).presented = s.presented ∧ (s.setStationState i q).idmap = s.idmap ∧
    (s.setStationState i q).rstore = s.rstore ∧ (s.setStationState i q).icls = s.icls ∧
    (s.setStationState i q).resp = s.resp ∧ (s.setStationState i q).wake = s.wake ∧
    (s.setStationState i q).hold = s.hold ∧ (s.setStationState i q).emit = s.emit ∧
    (s.setStationState i q).steer = s.steer ∧ (s.setStationState i q).cmde = s.cmde ∧
    (s.setStationState i q).nq = s.nq ∧ (s.setStationState i q).mport = s.mport ∧
    (s.setStationState i q).nint = s.nint ∧ (s.setStationState i q).intakeReady = s.intakeReady ∧
    (s.setStationState i q).out = s.out ∧ (s.setStationState i q).pending = s.pending := by
  simp [State.setStationState]

@[simp] theorem State.raiseShed_frame (s : State) (i : Slot) :
    (s.raiseShed i).presented = s.presented ∧ (s.raiseShed i).idmap = s.idmap ∧
    (s.raiseShed i).rstore = s.rstore ∧ (s.raiseShed i).icls = s.icls ∧ (s.raiseShed i).resp = s.resp ∧
    (s.raiseShed i).wake = s.wake ∧ (s.raiseShed i).hold = s.hold ∧ (s.raiseShed i).emit = s.emit ∧
    (s.raiseShed i).steer = s.steer ∧ (s.raiseShed i).cmde = s.cmde ∧ (s.raiseShed i).nq = s.nq ∧
    (s.raiseShed i).mport = s.mport ∧ (s.raiseShed i).nint = s.nint ∧
    (s.raiseShed i).intakeReady = s.intakeReady ∧ (s.raiseShed i).out = s.out ∧
    (s.raiseShed i).pending = s.pending := by
  simp [State.raiseShed]

@[simp] theorem State.freeResource_frame (s : State) (k : EntryKind) :
    (s.freeResource k).stab = s.stab ∧ (s.freeResource k).presented = s.presented ∧
    (s.freeResource k).idmap = s.idmap ∧ (s.freeResource k).rstore = s.rstore ∧
    (s.freeResource k).wake = s.wake ∧ (s.freeResource k).emit = s.emit ∧ (s.freeResource k).steer = s.steer ∧
    (s.freeResource k).cmde = s.cmde ∧ (s.freeResource k).nq = s.nq ∧ (s.freeResource k).mport = s.mport ∧
    (s.freeResource k).nint = s.nint ∧ (s.freeResource k).intakeReady = s.intakeReady ∧
    (s.freeResource k).out = s.out ∧ (s.freeResource k).pending = s.pending := by
  unfold State.freeResource; split <;> simp

@[simp] theorem State.freeResources_frame (s : State) (l : List Entry) :
    (s.freeResources l).stab = s.stab ∧ (s.freeResources l).presented = s.presented ∧
    (s.freeResources l).idmap = s.idmap ∧ (s.freeResources l).rstore = s.rstore ∧
    (s.freeResources l).wake = s.wake ∧ (s.freeResources l).emit = s.emit ∧
    (s.freeResources l).steer = s.steer ∧ (s.freeResources l).cmde = s.cmde ∧ (s.freeResources l).nq = s.nq ∧
    (s.freeResources l).mport = s.mport ∧ (s.freeResources l).nint = s.nint ∧
    (s.freeResources l).intakeReady = s.intakeReady ∧ (s.freeResources l).out = s.out ∧
    (s.freeResources l).pending = s.pending := by
  induction l generalizing s with
  | nil => simp [State.freeResources]
  | cons x r ih => simp [State.freeResources, ih]

@[simp] theorem State.purge_frame (s : State) :
    (s.purge).stab = s.stab ∧ (s.purge).presented = s.presented ∧ (s.purge).idmap = s.idmap ∧
    (s.purge).rstore = s.rstore ∧ (s.purge).wake = s.wake ∧ (s.purge).steer = s.steer ∧
    (s.purge).cmde = s.cmde ∧ (s.purge).nq = s.nq ∧ (s.purge).mport = s.mport ∧ (s.purge).nint = s.nint ∧
    (s.purge).intakeReady = s.intakeReady ∧ (s.purge).out = s.out ∧ (s.purge).pending = s.pending := by
  simp [State.purge]

@[simp] theorem State.discardHeld_frame (s : State) (h : Option (Fin 16)) :
    (s.discardHeld h).stab = s.stab ∧ (s.discardHeld h).presented = s.presented ∧
    (s.discardHeld h).idmap = s.idmap ∧ (s.discardHeld h).rstore = s.rstore ∧ (s.discardHeld h).icls = s.icls ∧
    (s.discardHeld h).resp = s.resp ∧ (s.discardHeld h).wake = s.wake ∧ (s.discardHeld h).emit = s.emit ∧
    (s.discardHeld h).steer = s.steer ∧ (s.discardHeld h).cmde = s.cmde ∧ (s.discardHeld h).nq = s.nq ∧
    (s.discardHeld h).mport = s.mport ∧ (s.discardHeld h).nint = s.nint ∧
    (s.discardHeld h).intakeReady = s.intakeReady ∧ (s.discardHeld h).out = s.out ∧
    (s.discardHeld h).pending = s.pending := by
  unfold State.discardHeld; split <;> simp

@[simp] theorem State.attempt_frame (s : State) (i : Slot) (st : Station) (a : Address) :
    (s.attempt i st a).presented = s.presented ∧ (s.attempt i st a).idmap = s.idmap ∧
    (s.attempt i st a).rstore = s.rstore ∧ (s.attempt i st a).icls = s.icls ∧
    (s.attempt i st a).resp = s.resp ∧ (s.attempt i st a).wake = s.wake ∧ (s.attempt i st a).hold = s.hold ∧
    (s.attempt i st a).steer = s.steer ∧ (s.attempt i st a).cmde = s.cmde ∧ (s.attempt i st a).nq = s.nq ∧
    (s.attempt i st a).mport = s.mport ∧ (s.attempt i st a).nint = s.nint ∧
    (s.attempt i st a).intakeReady = s.intakeReady ∧ (s.attempt i st a).out = s.out ∧
    (s.attempt i st a).pending = s.pending := by
  unfold State.attempt; split <;> simp

@[simp] theorem State.decideAck_frame (s : State) (i : Slot) (c : AckCode) (g q : Half) :
    (s.decideAck i c g q).presented = s.presented ∧ (s.decideAck i c g q).idmap = s.idmap ∧
    (s.decideAck i c g q).rstore = s.rstore ∧ (s.decideAck i c g q).icls = s.icls ∧
    (s.decideAck i c g q).wake = s.wake ∧ (s.decideAck i c g q).hold = s.hold ∧
    (s.decideAck i c g q).emit = s.emit ∧ (s.decideAck i c g q).steer = s.steer ∧
    (s.decideAck i c g q).cmde = s.cmde ∧ (s.decideAck i c g q).nq = s.nq ∧
    (s.decideAck i c g q).mport = s.mport ∧ (s.decideAck i c g q).nint = s.nint ∧
    (s.decideAck i c g q).intakeReady = s.intakeReady ∧ (s.decideAck i c g q).out = s.out ∧
    (s.decideAck i c g q).pending = s.pending := by
  unfold State.decideAck; split <;> simp

@[simp] theorem State.clearSticky_frame (s : State) (f : StickyFlag) :
    (s.clearSticky f).stab = s.stab ∧ (s.clearSticky f).presented = s.presented ∧
    (s.clearSticky f).idmap = s.idmap ∧ (s.clearSticky f).rstore = s.rstore ∧ (s.clearSticky f).icls = s.icls ∧
    (s.clearSticky f).resp = s.resp ∧ (s.clearSticky f).wake = s.wake ∧ (s.clearSticky f).hold = s.hold ∧
    (s.clearSticky f).emit = s.emit ∧ (s.clearSticky f).steer = s.steer ∧ (s.clearSticky f).nint = s.nint ∧
    (s.clearSticky f).intakeReady = s.intakeReady ∧ (s.clearSticky f).out = s.out ∧
    (s.clearSticky f).pending = s.pending := by
  unfold State.clearSticky; split <;> simp

@[simp] theorem State.releaseHeld_frame (s : State) (i : Slot) (st : Station) (h : Option (Fin 16)) :
    (s.releaseHeld i st h).presented = s.presented ∧ (s.releaseHeld i st h).idmap = s.idmap ∧
    (s.releaseHeld i st h).rstore = s.rstore ∧ (s.releaseHeld i st h).icls = s.icls ∧
    (s.releaseHeld i st h).resp = s.resp ∧ (s.releaseHeld i st h).wake = s.wake ∧
    (s.releaseHeld i st h).steer = s.steer ∧ (s.releaseHeld i st h).cmde = s.cmde ∧
    (s.releaseHeld i st h).nq = s.nq ∧ (s.releaseHeld i st h).mport = s.mport ∧
    (s.releaseHeld i st h).nint = s.nint ∧ (s.releaseHeld i st h).intakeReady = s.intakeReady ∧
    (s.releaseHeld i st h).out = s.out ∧ (s.releaseHeld i st h).pending = s.pending := by
  refine ⟨?_, ?_, ?_, ?_, ?_, ?_, ?_, ?_, ?_, ?_, ?_, ?_, ?_, ?_⟩ <;> (unfold State.releaseHeld; repeat' split) <;> simp

@[simp] theorem State.confirmWaking_frame (s : State) (i : Slot) (st : Station) (c : WakeCause) (h : Option (Fin 16)) :
    (s.confirmWaking i st c h).presented = s.presented ∧ (s.confirmWaking i st c h).idmap = s.idmap ∧
    (s.confirmWaking i st c h).rstore = s.rstore ∧ (s.confirmWaking i st c h).icls = s.icls ∧
    (s.confirmWaking i st c h).resp = s.resp ∧ (s.confirmWaking i st c h).cmde = s.cmde ∧
    (s.confirmWaking i st c h).nq = s.nq ∧ (s.confirmWaking i st c h).mport = s.mport ∧
    (s.confirmWaking i st c h).nint = s.nint ∧ (s.confirmWaking i st c h).intakeReady = s.intakeReady ∧
    (s.confirmWaking i st c h).out = s.out ∧ (s.confirmWaking i st c h).pending = s.pending := by
  simp [State.confirmWaking]

@[simp] theorem State.confirmEntering_frame (s : State) (i : Slot) (st : Station) :
    (s.confirmEntering i st).presented = s.presented ∧ (s.confirmEntering i st).idmap = s.idmap ∧
    (s.confirmEntering i st).rstore = s.rstore ∧ (s.confirmEntering i st).icls = s.icls ∧
    (s.confirmEntering i st).resp = s.resp ∧ (s.confirmEntering i st).wake = s.wake ∧
    (s.confirmEntering i st).hold = s.hold ∧ (s.confirmEntering i st).emit = s.emit ∧
    (s.confirmEntering i st).cmde = s.cmde ∧ (s.confirmEntering i st).mport = s.mport ∧
    (s.confirmEntering i st).nint = s.nint ∧ (s.confirmEntering i st).intakeReady = s.intakeReady ∧
    (s.confirmEntering i st).out = s.out ∧ (s.confirmEntering i st).pending = s.pending := by
  unfold State.confirmEntering; split <;> simp

@[simp] theorem State.confirmAwake_frame (s : State) (i : Slot) :
    (s.confirmAwake i).presented = s.presented ∧ (s.confirmAwake i).idmap = s.idmap ∧
    (s.confirmAwake i).rstore = s.rstore ∧ (s.confirmAwake i).icls = s.icls ∧
    (s.confirmAwake i).resp = s.resp ∧ (s.confirmAwake i).cmde = s.cmde ∧ (s.confirmAwake i).mport = s.mport ∧
    (s.confirmAwake i).nint = s.nint ∧ (s.confirmAwake i).intakeReady = s.intakeReady ∧
    (s.confirmAwake i).out = s.out ∧ (s.confirmAwake i).pending = s.pending := by
  refine ⟨?_, ?_, ?_, ?_, ?_, ?_, ?_, ?_, ?_, ?_, ?_⟩ <;> (unfold State.confirmAwake; repeat' split) <;> simp

@[simp] theorem State.enterSleep_frame (s : State) (i : Slot) (st : Station) (o : SleepOrigin) :
    (s.enterSleep i st o).presented = s.presented ∧ (s.enterSleep i st o).idmap = s.idmap ∧
    (s.enterSleep i st o).rstore = s.rstore ∧ (s.enterSleep i st o).icls = s.icls ∧
    (s.enterSleep i st o).resp = s.resp ∧ (s.enterSleep i st o).wake = s.wake ∧
    (s.enterSleep i st o).hold = s.hold ∧ (s.enterSleep i st o).emit = s.emit ∧
    (s.enterSleep i st o).cmde = s.cmde ∧ (s.enterSleep i st o).nq = s.nq ∧
    (s.enterSleep i st o).mport = s.mport ∧ (s.enterSleep i st o).nint = s.nint ∧
    (s.enterSleep i st o).intakeReady = s.intakeReady ∧ (s.enterSleep i st o).out = s.out ∧
    (s.enterSleep i st o).pending = s.pending := by
  simp [State.enterSleep]

@[simp] theorem State.sleepFromAwake_frame (s : State) (i : Slot) (st : Station) (q l : Half) :
    (s.sleepFromAwake i st q l).presented = s.presented ∧ (s.sleepFromAwake i st q l).idmap = s.idmap ∧
    (s.sleepFromAwake i st q l).rstore = s.rstore ∧ (s.sleepFromAwake i st q l).icls = s.icls ∧
    (s.sleepFromAwake i st q l).wake = s.wake ∧ (s.sleepFromAwake i st q l).hold = s.hold ∧
    (s.sleepFromAwake i st q l).emit = s.emit ∧ (s.sleepFromAwake i st q l).cmde = s.cmde ∧
    (s.sleepFromAwake i st q l).nq = s.nq ∧ (s.sleepFromAwake i st q l).mport = s.mport ∧
    (s.sleepFromAwake i st q l).nint = s.nint ∧ (s.sleepFromAwake i st q l).intakeReady = s.intakeReady ∧
    (s.sleepFromAwake i st q l).out = s.out ∧ (s.sleepFromAwake i st q l).pending = s.pending := by
  unfold State.sleepFromAwake; split <;> simp

@[simp] theorem State.sleepAnnounced_frame (s : State) (i : Slot) (q l : Half) :
    (s.sleepAnnounced i q l).presented = s.presented ∧ (s.sleepAnnounced i q l).idmap = s.idmap ∧
    (s.sleepAnnounced i q l).rstore = s.rstore ∧ (s.sleepAnnounced i q l).icls = s.icls ∧
    (s.sleepAnnounced i q l).cmde = s.cmde ∧ (s.sleepAnnounced i q l).mport = s.mport ∧
    (s.sleepAnnounced i q l).nint = s.nint ∧ (s.sleepAnnounced i q l).intakeReady = s.intakeReady ∧
    (s.sleepAnnounced i q l).out = s.out ∧ (s.sleepAnnounced i q l).pending = s.pending := by
  refine ⟨?_, ?_, ?_, ?_, ?_, ?_, ?_, ?_, ?_, ?_⟩ <;> (unfold State.sleepAnnounced; repeat' split) <;> simp

@[simp] theorem State.divertAck_frame (s : State) (i : Slot) :
    (s.divertAck i).presented = s.presented ∧ (s.divertAck i).idmap = s.idmap ∧
    (s.divertAck i).rstore = s.rstore ∧ (s.divertAck i).icls = s.icls ∧ (s.divertAck i).wake = s.wake ∧
    (s.divertAck i).hold = s.hold ∧ (s.divertAck i).emit = s.emit ∧ (s.divertAck i).steer = s.steer ∧
    (s.divertAck i).cmde = s.cmde ∧ (s.divertAck i).mport = s.mport ∧ (s.divertAck i).nint = s.nint ∧
    (s.divertAck i).intakeReady = s.intakeReady ∧ (s.divertAck i).out = s.out ∧
    (s.divertAck i).pending = s.pending := by
  refine ⟨?_, ?_, ?_, ?_, ?_, ?_, ?_, ?_, ?_, ?_, ?_, ?_, ?_, ?_⟩ <;> (unfold State.divertAck; repeat' split) <;> simp

@[simp] theorem State.divertNak_frame (s : State) (i : Slot) (r : NakReason) :
    (s.divertNak i r).presented = s.presented ∧ (s.divertNak i r).idmap = s.idmap ∧
    (s.divertNak i r).rstore = s.rstore ∧ (s.divertNak i r).icls = s.icls ∧ (s.divertNak i r).wake = s.wake ∧
    (s.divertNak i r).hold = s.hold ∧ (s.divertNak i r).emit = s.emit ∧ (s.divertNak i r).steer = s.steer ∧
    (s.divertNak i r).cmde = s.cmde ∧ (s.divertNak i r).mport = s.mport ∧ (s.divertNak i r).nint = s.nint ∧
    (s.divertNak i r).intakeReady = s.intakeReady ∧ (s.divertNak i r).out = s.out ∧
    (s.divertNak i r).pending = s.pending := by
  refine ⟨?_, ?_, ?_, ?_, ?_, ?_, ?_, ?_, ?_, ?_, ?_, ?_, ?_, ?_⟩ <;> (unfold State.divertNak; repeat' split) <;> simp

@[simp] theorem State.restoreOutcome_frame (s : State) (i : Slot) :
    (s.restoreOutcome i).presented = s.presented ∧ (s.restoreOutcome i).icls = s.icls ∧
    (s.restoreOutcome i).resp = s.resp ∧ (s.restoreOutcome i).wake = s.wake ∧
    (s.restoreOutcome i).hold = s.hold ∧ (s.restoreOutcome i).emit = s.emit ∧
    (s.restoreOutcome i).steer = s.steer ∧ (s.restoreOutcome i).cmde = s.cmde ∧
    (s.restoreOutcome i).mport = s.mport ∧ (s.restoreOutcome i).nint = s.nint ∧
    (s.restoreOutcome i).intakeReady = s.intakeReady ∧ (s.restoreOutcome i).out = s.out ∧
    (s.restoreOutcome i).pending = s.pending := by
  refine ⟨?_, ?_, ?_, ?_, ?_, ?_, ?_, ?_, ?_, ?_, ?_, ?_, ?_⟩ <;> (unfold State.restoreOutcome; repeat' split) <;> simp

@[simp] theorem State.restoreNak_frame (s : State) (i : Slot) (r : NakReason) :
    (s.restoreNak i r).presented = s.presented ∧ (s.restoreNak i r).icls = s.icls ∧
    (s.restoreNak i r).resp = s.resp ∧ (s.restoreNak i r).wake = s.wake ∧ (s.restoreNak i r).hold = s.hold ∧
    (s.restoreNak i r).emit = s.emit ∧ (s.restoreNak i r).steer = s.steer ∧ (s.restoreNak i r).cmde = s.cmde ∧
    (s.restoreNak i r).mport = s.mport ∧ (s.restoreNak i r).nint = s.nint ∧
    (s.restoreNak i r).intakeReady = s.intakeReady ∧ (s.restoreNak i r).out = s.out ∧
    (s.restoreNak i r).pending = s.pending := by
  simp [State.restoreNak]

@[simp] theorem State.beginWaking_frame (s : State) (i : Slot) (st : Station) :
    (s.beginWaking i st).presented = s.presented ∧ (s.beginWaking i st).idmap = s.idmap ∧
    (s.beginWaking i st).rstore = s.rstore ∧ (s.beginWaking i st).icls = s.icls ∧
    (s.beginWaking i st).resp = s.resp ∧ (s.beginWaking i st).hold = s.hold ∧
    (s.beginWaking i st).steer = s.steer ∧ (s.beginWaking i st).cmde = s.cmde ∧
    (s.beginWaking i st).nq = s.nq ∧ (s.beginWaking i st).mport = s.mport ∧
    (s.beginWaking i st).nint = s.nint ∧ (s.beginWaking i st).intakeReady = s.intakeReady ∧
    (s.beginWaking i st).out = s.out ∧ (s.beginWaking i st).pending = s.pending := by
  simp [State.beginWaking]

@[simp] theorem State.holdFrame_frame (s : State) (i : Slot) (c : WakeCause) (b : List Byte) :
    (s.holdFrame i c b).presented = s.presented ∧ (s.holdFrame i c b).idmap = s.idmap ∧
    (s.holdFrame i c b).rstore = s.rstore ∧ (s.holdFrame i c b).icls = s.icls ∧
    (s.holdFrame i c b).resp = s.resp ∧ (s.holdFrame i c b).wake = s.wake ∧ (s.holdFrame i c b).emit = s.emit ∧
    (s.holdFrame i c b).steer = s.steer ∧ (s.holdFrame i c b).cmde = s.cmde ∧
    (s.holdFrame i c b).mport = s.mport ∧ (s.holdFrame i c b).nint = s.nint ∧
    (s.holdFrame i c b).intakeReady = s.intakeReady ∧ (s.holdFrame i c b).out = s.out ∧
    (s.holdFrame i c b).pending = s.pending := by
  refine ⟨?_, ?_, ?_, ?_, ?_, ?_, ?_, ?_, ?_, ?_, ?_, ?_, ?_, ?_⟩ <;> (unfold State.holdFrame; repeat' split) <;> simp

@[simp] theorem State.wakeUp_frame (s : State) (i : Slot) (st : Station) (c : WakeCause) :
    (s.wakeUp i st c).presented = s.presented ∧ (s.wakeUp i st c).idmap = s.idmap ∧
    (s.wakeUp i st c).rstore = s.rstore ∧ (s.wakeUp i st c).icls = s.icls ∧ (s.wakeUp i st c).resp = s.resp ∧
    (s.wakeUp i st c).hold = s.hold ∧ (s.wakeUp i st c).steer = s.steer ∧ (s.wakeUp i st c).cmde = s.cmde ∧
    (s.wakeUp i st c).mport = s.mport ∧ (s.wakeUp i st c).nint = s.nint ∧
    (s.wakeUp i st c).intakeReady = s.intakeReady ∧ (s.wakeUp i st c).out = s.out ∧
    (s.wakeUp i st c).pending = s.pending := by
  simp [State.wakeUp]

@[simp] theorem State.exhaustWaking_frame (s : State) (i : Slot) :
    (s.exhaustWaking i).presented = s.presented ∧ (s.exhaustWaking i).idmap = s.idmap ∧
    (s.exhaustWaking i).rstore = s.rstore ∧ (s.exhaustWaking i).icls = s.icls ∧
    (s.exhaustWaking i).resp = s.resp ∧ (s.exhaustWaking i).wake = s.wake ∧ (s.exhaustWaking i).cmde = s.cmde ∧
    (s.exhaustWaking i).mport = s.mport ∧ (s.exhaustWaking i).nint = s.nint ∧
    (s.exhaustWaking i).intakeReady = s.intakeReady ∧ (s.exhaustWaking i).out = s.out ∧
    (s.exhaustWaking i).pending = s.pending := by
  refine ⟨?_, ?_, ?_, ?_, ?_, ?_, ?_, ?_, ?_, ?_, ?_, ?_⟩ <;> (unfold State.exhaustWaking; repeat' split) <;> simp

@[simp] theorem State.teardownAt_frame (s : State) (i : Slot) :
    (s.teardownAt i).presented = s.presented ∧ (s.teardownAt i).icls = s.icls ∧
    (s.teardownAt i).resp = s.resp ∧ (s.teardownAt i).emit = s.emit ∧ (s.teardownAt i).steer = s.steer ∧
    (s.teardownAt i).cmde = s.cmde ∧ (s.teardownAt i).mport = s.mport ∧ (s.teardownAt i).nint = s.nint ∧
    (s.teardownAt i).intakeReady = s.intakeReady ∧ (s.teardownAt i).out = s.out ∧
    (s.teardownAt i).pending = s.pending := by
  refine ⟨?_, ?_, ?_, ?_, ?_, ?_, ?_, ?_, ?_, ?_, ?_⟩ <;> (unfold State.teardownAt; repeat' split) <;> simp

@[simp] theorem State.teardown_frame (s : State) :
    (s.teardown).presented = s.presented ∧ (s.teardown).icls = s.icls ∧ (s.teardown).resp = s.resp ∧
    (s.teardown).emit = s.emit ∧ (s.teardown).steer = s.steer ∧ (s.teardown).cmde = s.cmde ∧
    (s.teardown).mport = s.mport ∧ (s.teardown).nint = s.nint ∧ (s.teardown).intakeReady = s.intakeReady ∧
    (s.teardown).out = s.out ∧ (s.teardown).pending = s.pending := by
  unfold State.teardown
  generalize List.finRange 64 = l
  induction l generalizing s with
  | nil => simp
  | cons x r ih => simp [List.foldl, ih]

@[simp] theorem State.repeatAnnounced_frame (s : State) (i : Slot) (st : Station) (o : AnnounceOp) (q : Half) :
    (s.repeatAnnounced i st o q).stab = s.stab ∧ (s.repeatAnnounced i st o q).presented = s.presented ∧
    (s.repeatAnnounced i st o q).idmap = s.idmap ∧ (s.repeatAnnounced i st o q).rstore = s.rstore ∧
    (s.repeatAnnounced i st o q).icls = s.icls ∧ (s.repeatAnnounced i st o q).wake = s.wake ∧
    (s.repeatAnnounced i st o q).hold = s.hold ∧ (s.repeatAnnounced i st o q).emit = s.emit ∧
    (s.repeatAnnounced i st o q).steer = s.steer ∧ (s.repeatAnnounced i st o q).cmde = s.cmde ∧
    (s.repeatAnnounced i st o q).nq = s.nq ∧ (s.repeatAnnounced i st o q).mport = s.mport ∧
    (s.repeatAnnounced i st o q).nint = s.nint ∧ (s.repeatAnnounced i st o q).intakeReady = s.intakeReady ∧
    (s.repeatAnnounced i st o q).out = s.out ∧ (s.repeatAnnounced i st o q).pending = s.pending := by
  unfold State.repeatAnnounced; split <;> simp

@[simp] theorem State.takeAnnouncement_frame (s : State) (i : Slot) (st : Station) (o : AnnounceOp) (q l : Half) :
    (s.takeAnnouncement i st o q l).presented = s.presented ∧ (s.takeAnnouncement i st o q l).idmap = s.idmap ∧
    (s.takeAnnouncement i st o q l).rstore = s.rstore ∧ (s.takeAnnouncement i st o q l).icls = s.icls ∧
    (s.takeAnnouncement i st o q l).cmde = s.cmde ∧ (s.takeAnnouncement i st o q l).mport = s.mport ∧
    (s.takeAnnouncement i st o q l).nint = s.nint ∧
    (s.takeAnnouncement i st o q l).intakeReady = s.intakeReady ∧ (s.takeAnnouncement i st o q l).out = s.out ∧
    (s.takeAnnouncement i st o q l).pending = s.pending := by
  refine ⟨?_, ?_, ?_, ?_, ?_, ?_, ?_, ?_, ?_, ?_⟩ <;> (unfold State.takeAnnouncement; repeat' split) <;> simp

@[simp] theorem State.beginStop_frame (s : State) :
    (s.beginStop).presented = s.presented ∧ (s.beginStop).cmde = s.cmde ∧ (s.beginStop).mport = s.mport ∧
    (s.beginStop).nint = s.nint ∧ (s.beginStop).intakeReady = s.intakeReady ∧
    (s.beginStop).pending = s.pending := by
  simp [State.beginStop]

@[simp] theorem State.takeRunSet_frame (s : State) :
    (s.takeRunSet).stab = s.stab ∧ (s.takeRunSet).presented = s.presented ∧ (s.takeRunSet).idmap = s.idmap ∧
    (s.takeRunSet).rstore = s.rstore ∧ (s.takeRunSet).icls = s.icls ∧ (s.takeRunSet).resp = s.resp ∧
    (s.takeRunSet).wake = s.wake ∧ (s.takeRunSet).hold = s.hold ∧ (s.takeRunSet).emit = s.emit ∧
    (s.takeRunSet).cmde = s.cmde ∧ (s.takeRunSet).nq = s.nq ∧ (s.takeRunSet).mport = s.mport ∧
    (s.takeRunSet).nint = s.nint ∧ (s.takeRunSet).intakeReady = s.intakeReady ∧
    (s.takeRunSet).pending = s.pending := by
  unfold State.takeRunSet; split <;> simp

@[simp] theorem State.takeRunCleared_frame (s : State) :
    (s.takeRunCleared).presented = s.presented ∧ (s.takeRunCleared).cmde = s.cmde ∧
    (s.takeRunCleared).mport = s.mport ∧ (s.takeRunCleared).nint = s.nint ∧
    (s.takeRunCleared).intakeReady = s.intakeReady ∧ (s.takeRunCleared).pending = s.pending := by
  unfold State.takeRunCleared; split <;> simp

@[simp] theorem State.stationOutcome_frame (s : State) (r : SteerRequest) (v : Verdict) :
    (s.stationOutcome r v).presented = s.presented ∧ (s.stationOutcome r v).icls = s.icls ∧
    (s.stationOutcome r v).wake = s.wake ∧ (s.stationOutcome r v).hold = s.hold ∧
    (s.stationOutcome r v).emit = s.emit ∧ (s.stationOutcome r v).cmde = s.cmde ∧
    (s.stationOutcome r v).mport = s.mport ∧ (s.stationOutcome r v).nint = s.nint ∧
    (s.stationOutcome r v).intakeReady = s.intakeReady ∧ (s.stationOutcome r v).out = s.out ∧
    (s.stationOutcome r v).pending = s.pending := by
  unfold State.stationOutcome; split <;> simp

@[simp] theorem State.clearAllOutcome_frame (s : State) :
    (s.clearAllOutcome).stab = s.stab ∧ (s.clearAllOutcome).presented = s.presented ∧
    (s.clearAllOutcome).idmap = s.idmap ∧ (s.clearAllOutcome).rstore = s.rstore ∧
    (s.clearAllOutcome).icls = s.icls ∧ (s.clearAllOutcome).resp = s.resp ∧ (s.clearAllOutcome).wake = s.wake ∧
    (s.clearAllOutcome).hold = s.hold ∧ (s.clearAllOutcome).emit = s.emit ∧ (s.clearAllOutcome).cmde = s.cmde ∧
    (s.clearAllOutcome).mport = s.mport ∧ (s.clearAllOutcome).nint = s.nint ∧
    (s.clearAllOutcome).intakeReady = s.intakeReady ∧ (s.clearAllOutcome).out = s.out ∧
    (s.clearAllOutcome).pending = s.pending := by
  unfold State.clearAllOutcome; split <;> simp

@[simp] theorem State.takeAnswer_frame (s : State) (q : Byte) (v : Verdict) :
    (s.takeAnswer q v).presented = s.presented ∧ (s.takeAnswer q v).icls = s.icls ∧
    (s.takeAnswer q v).wake = s.wake ∧ (s.takeAnswer q v).hold = s.hold ∧ (s.takeAnswer q v).emit = s.emit ∧
    (s.takeAnswer q v).cmde = s.cmde ∧ (s.takeAnswer q v).mport = s.mport ∧ (s.takeAnswer q v).nint = s.nint ∧
    (s.takeAnswer q v).intakeReady = s.intakeReady ∧ (s.takeAnswer q v).out = s.out ∧
    (s.takeAnswer q v).pending = s.pending := by
  refine ⟨?_, ?_, ?_, ?_, ?_, ?_, ?_, ?_, ?_, ?_, ?_⟩ <;> (unfold State.takeAnswer; repeat' split) <;> simp

@[simp] theorem State.exhaustRetries_frame (s : State) (f : InFlight) :
    (s.exhaustRetries f).stab = s.stab ∧ (s.exhaustRetries f).presented = s.presented ∧
    (s.exhaustRetries f).idmap = s.idmap ∧ (s.exhaustRetries f).rstore = s.rstore ∧
    (s.exhaustRetries f).icls = s.icls ∧ (s.exhaustRetries f).resp = s.resp ∧
    (s.exhaustRetries f).wake = s.wake ∧ (s.exhaustRetries f).hold = s.hold ∧
    (s.exhaustRetries f).emit = s.emit ∧ (s.exhaustRetries f).cmde = s.cmde ∧
    (s.exhaustRetries f).mport = s.mport ∧ (s.exhaustRetries f).nint = s.nint ∧
    (s.exhaustRetries f).intakeReady = s.intakeReady ∧ (s.exhaustRetries f).out = s.out ∧
    (s.exhaustRetries f).pending = s.pending := by
  unfold State.exhaustRetries; split <;> simp

@[simp] theorem State.takeTimeout_frame (s : State) (f : InFlight) :
    (s.takeTimeout f).stab = s.stab ∧ (s.takeTimeout f).presented = s.presented ∧
    (s.takeTimeout f).idmap = s.idmap ∧ (s.takeTimeout f).rstore = s.rstore ∧ (s.takeTimeout f).icls = s.icls ∧
    (s.takeTimeout f).resp = s.resp ∧ (s.takeTimeout f).wake = s.wake ∧ (s.takeTimeout f).hold = s.hold ∧
    (s.takeTimeout f).emit = s.emit ∧ (s.takeTimeout f).cmde = s.cmde ∧ (s.takeTimeout f).mport = s.mport ∧
    (s.takeTimeout f).nint = s.nint ∧ (s.takeTimeout f).intakeReady = s.intakeReady ∧
    (s.takeTimeout f).pending = s.pending := by
  unfold State.takeTimeout; split <;> simp

@[simp] theorem State.takeGo_frame (s : State) :
    (s.takeGo).stab = s.stab ∧ (s.takeGo).presented = s.presented ∧ (s.takeGo).idmap = s.idmap ∧
    (s.takeGo).rstore = s.rstore ∧ (s.takeGo).icls = s.icls ∧ (s.takeGo).resp = s.resp ∧
    (s.takeGo).wake = s.wake ∧ (s.takeGo).hold = s.hold ∧ (s.takeGo).emit = s.emit ∧
    (s.takeGo).steer = s.steer ∧ (s.takeGo).nq = s.nq ∧ (s.takeGo).mport = s.mport ∧ (s.takeGo).nint = s.nint ∧
    (s.takeGo).intakeReady = s.intakeReady ∧ (s.takeGo).out = s.out ∧ (s.takeGo).pending = s.pending := by
  unfold State.takeGo; split <;> simp

@[simp] theorem State.startArrival_frame (s : State) :
    (s.startArrival).stab = s.stab ∧ (s.startArrival).presented = s.presented ∧
    (s.startArrival).idmap = s.idmap ∧ (s.startArrival).rstore = s.rstore ∧ (s.startArrival).resp = s.resp ∧
    (s.startArrival).wake = s.wake ∧ (s.startArrival).hold = s.hold ∧ (s.startArrival).emit = s.emit ∧
    (s.startArrival).steer = s.steer ∧ (s.startArrival).cmde = s.cmde ∧ (s.startArrival).nq = s.nq ∧
    (s.startArrival).mport = s.mport ∧ (s.startArrival).nint = s.nint ∧
    (s.startArrival).intakeReady = s.intakeReady ∧ (s.startArrival).out = s.out ∧
    (s.startArrival).pending = s.pending := by
  refine ⟨?_, ?_, ?_, ?_, ?_, ?_, ?_, ?_, ?_, ?_, ?_, ?_, ?_, ?_, ?_, ?_⟩ <;> (unfold State.startArrival; repeat' split) <;> simp

@[simp] theorem State.finishArrival_frame (s : State) (g : IntakeTag) (b : List Byte) :
    (s.finishArrival g b).stab = s.stab ∧ (s.finishArrival g b).presented = s.presented ∧
    (s.finishArrival g b).idmap = s.idmap ∧ (s.finishArrival g b).rstore = s.rstore ∧
    (s.finishArrival g b).resp = s.resp ∧ (s.finishArrival g b).wake = s.wake ∧
    (s.finishArrival g b).hold = s.hold ∧ (s.finishArrival g b).emit = s.emit ∧
    (s.finishArrival g b).steer = s.steer ∧ (s.finishArrival g b).cmde = s.cmde ∧
    (s.finishArrival g b).nq = s.nq ∧ (s.finishArrival g b).mport = s.mport ∧
    (s.finishArrival g b).nint = s.nint ∧ (s.finishArrival g b).intakeReady = s.intakeReady ∧
    (s.finishArrival g b).out = s.out ∧ (s.finishArrival g b).pending = s.pending := by
  refine ⟨?_, ?_, ?_, ?_, ?_, ?_, ?_, ?_, ?_, ?_, ?_, ?_, ?_, ?_, ?_, ?_⟩ <;> (unfold State.finishArrival; repeat' split) <;> simp

@[simp] theorem State.testSighting_frame (s : State) (f : Frame) :
    (s.testSighting f).stab = s.stab ∧ (s.testSighting f).idmap = s.idmap ∧
    (s.testSighting f).rstore = s.rstore ∧ (s.testSighting f).resp = s.resp ∧
    (s.testSighting f).wake = s.wake ∧ (s.testSighting f).hold = s.hold ∧ (s.testSighting f).emit = s.emit ∧
    (s.testSighting f).steer = s.steer ∧ (s.testSighting f).cmde = s.cmde ∧ (s.testSighting f).nq = s.nq ∧
    (s.testSighting f).mport = s.mport ∧ (s.testSighting f).nint = s.nint ∧
    (s.testSighting f).intakeReady = s.intakeReady ∧ (s.testSighting f).out = s.out ∧
    (s.testSighting f).pending = s.pending := by
  unfold State.testSighting; split <;> simp

@[simp] theorem State.testAnnouncement_frame (s : State) (j : Fin 4) (f : Frame) :
    (s.testAnnouncement j f).stab = s.stab ∧ (s.testAnnouncement j f).idmap = s.idmap ∧
    (s.testAnnouncement j f).rstore = s.rstore ∧ (s.testAnnouncement j f).resp = s.resp ∧
    (s.testAnnouncement j f).wake = s.wake ∧ (s.testAnnouncement j f).hold = s.hold ∧
    (s.testAnnouncement j f).emit = s.emit ∧ (s.testAnnouncement j f).steer = s.steer ∧
    (s.testAnnouncement j f).cmde = s.cmde ∧ (s.testAnnouncement j f).mport = s.mport ∧
    (s.testAnnouncement j f).nint = s.nint ∧ (s.testAnnouncement j f).intakeReady = s.intakeReady ∧
    (s.testAnnouncement j f).out = s.out ∧ (s.testAnnouncement j f).pending = s.pending := by
  refine ⟨?_, ?_, ?_, ?_, ?_, ?_, ?_, ?_, ?_, ?_, ?_, ?_, ?_, ?_⟩ <;> (unfold State.testAnnouncement; repeat' split) <;> simp

@[simp] theorem State.testQuery_frame (s : State) (q : Option Slot) (f : Frame) :
    (s.testQuery q f).stab = s.stab ∧ (s.testQuery q f).presented = s.presented ∧
    (s.testQuery q f).idmap = s.idmap ∧ (s.testQuery q f).rstore = s.rstore ∧ (s.testQuery q f).resp = s.resp ∧
    (s.testQuery q f).wake = s.wake ∧ (s.testQuery q f).hold = s.hold ∧ (s.testQuery q f).emit = s.emit ∧
    (s.testQuery q f).steer = s.steer ∧ (s.testQuery q f).cmde = s.cmde ∧ (s.testQuery q f).nq = s.nq ∧
    (s.testQuery q f).mport = s.mport ∧ (s.testQuery q f).nint = s.nint ∧
    (s.testQuery q f).intakeReady = s.intakeReady ∧ (s.testQuery q f).out = s.out ∧
    (s.testQuery q f).pending = s.pending := by
  refine ⟨?_, ?_, ?_, ?_, ?_, ?_, ?_, ?_, ?_, ?_, ?_, ?_, ?_, ?_, ?_, ?_⟩ <;> (unfold State.testQuery; repeat' split) <;> simp

@[simp] theorem State.useLookup_frame (s : State) (f : Frame) (i : Slot) (b : Bool) :
    (s.useLookup f i b).stab = s.stab ∧ (s.useLookup f i b).idmap = s.idmap ∧
    (s.useLookup f i b).rstore = s.rstore ∧ (s.useLookup f i b).icls = s.icls ∧
    (s.useLookup f i b).wake = s.wake ∧ (s.useLookup f i b).hold = s.hold ∧ (s.useLookup f i b).emit = s.emit ∧
    (s.useLookup f i b).steer = s.steer ∧ (s.useLookup f i b).cmde = s.cmde ∧ (s.useLookup f i b).nq = s.nq ∧
    (s.useLookup f i b).mport = s.mport ∧ (s.useLookup f i b).nint = s.nint ∧
    (s.useLookup f i b).intakeReady = s.intakeReady ∧ (s.useLookup f i b).out = s.out ∧
    (s.useLookup f i b).pending = s.pending := by
  refine ⟨?_, ?_, ?_, ?_, ?_, ?_, ?_, ?_, ?_, ?_, ?_, ?_, ?_, ?_, ?_⟩ <;> (unfold State.useLookup; repeat' split) <;> simp

@[simp] theorem State.testProbe_frame (s : State) (j : Fin 4) (q : Option Slot) (f : Frame) :
    (s.testProbe j q f).stab = s.stab ∧ (s.testProbe j q f).presented = s.presented ∧
    (s.testProbe j q f).idmap = s.idmap ∧ (s.testProbe j q f).rstore = s.rstore ∧
    (s.testProbe j q f).wake = s.wake ∧ (s.testProbe j q f).hold = s.hold ∧ (s.testProbe j q f).emit = s.emit ∧
    (s.testProbe j q f).steer = s.steer ∧ (s.testProbe j q f).cmde = s.cmde ∧ (s.testProbe j q f).nq = s.nq ∧
    (s.testProbe j q f).mport = s.mport ∧ (s.testProbe j q f).nint = s.nint ∧
    (s.testProbe j q f).intakeReady = s.intakeReady ∧ (s.testProbe j q f).out = s.out ∧
    (s.testProbe j q f).pending = s.pending := by
  unfold State.testProbe; split <;> simp

@[simp] theorem State.floodAt_frame (s : State) (q : Option Slot) (f : Frame) (i : Slot) :
    (s.floodAt q f i).stab = s.stab ∧ (s.floodAt q f i).idmap = s.idmap ∧ (s.floodAt q f i).rstore = s.rstore ∧
    (s.floodAt q f i).icls = s.icls ∧ (s.floodAt q f i).resp = s.resp ∧ (s.floodAt q f i).wake = s.wake ∧
    (s.floodAt q f i).hold = s.hold ∧ (s.floodAt q f i).emit = s.emit ∧ (s.floodAt q f i).steer = s.steer ∧
    (s.floodAt q f i).cmde = s.cmde ∧ (s.floodAt q f i).nq = s.nq ∧ (s.floodAt q f i).mport = s.mport ∧
    (s.floodAt q f i).nint = s.nint ∧ (s.floodAt q f i).intakeReady = s.intakeReady ∧
    (s.floodAt q f i).out = s.out ∧ (s.floodAt q f i).pending = s.pending := by
  refine ⟨?_, ?_, ?_, ?_, ?_, ?_, ?_, ?_, ?_, ?_, ?_, ?_, ?_, ?_, ?_, ?_⟩ <;> (unfold State.floodAt; repeat' split) <;> simp

@[simp] theorem State.testFlood_frame (s : State) (j : Fin 4) (q : Option Slot) (f : Frame) (k : Nat) :
    (s.testFlood j q f k).stab = s.stab ∧ (s.testFlood j q f k).idmap = s.idmap ∧
    (s.testFlood j q f k).rstore = s.rstore ∧ (s.testFlood j q f k).resp = s.resp ∧
    (s.testFlood j q f k).wake = s.wake ∧ (s.testFlood j q f k).hold = s.hold ∧
    (s.testFlood j q f k).emit = s.emit ∧ (s.testFlood j q f k).steer = s.steer ∧
    (s.testFlood j q f k).cmde = s.cmde ∧ (s.testFlood j q f k).nq = s.nq ∧
    (s.testFlood j q f k).mport = s.mport ∧ (s.testFlood j q f k).nint = s.nint ∧
    (s.testFlood j q f k).intakeReady = s.intakeReady ∧ (s.testFlood j q f k).out = s.out ∧
    (s.testFlood j q f k).pending = s.pending := by
  refine ⟨?_, ?_, ?_, ?_, ?_, ?_, ?_, ?_, ?_, ?_, ?_, ?_, ?_, ?_, ?_⟩ <;> (unfold State.testFlood; repeat' split) <;> simp

@[simp] theorem State.expireLease_frame (s : State) (i : Slot) :
    (s.expireLease i).presented = s.presented ∧ (s.expireLease i).idmap = s.idmap ∧
    (s.expireLease i).rstore = s.rstore ∧ (s.expireLease i).icls = s.icls ∧ (s.expireLease i).resp = s.resp ∧
    (s.expireLease i).hold = s.hold ∧ (s.expireLease i).steer = s.steer ∧ (s.expireLease i).cmde = s.cmde ∧
    (s.expireLease i).mport = s.mport ∧ (s.expireLease i).nint = s.nint ∧
    (s.expireLease i).intakeReady = s.intakeReady ∧ (s.expireLease i).out = s.out ∧
    (s.expireLease i).pending = s.pending := by
  refine ⟨?_, ?_, ?_, ?_, ?_, ?_, ?_, ?_, ?_, ?_, ?_, ?_, ?_⟩ <;> (unfold State.expireLease; repeat' split) <;> simp

@[simp] theorem State.takeInterval_frame (s : State) (i : Slot) (a : Address) :
    (s.takeInterval i a).presented = s.presented ∧ (s.takeInterval i a).idmap = s.idmap ∧
    (s.takeInterval i a).rstore = s.rstore ∧ (s.takeInterval i a).icls = s.icls ∧
    (s.takeInterval i a).resp = s.resp ∧ (s.takeInterval i a).cmde = s.cmde ∧
    (s.takeInterval i a).mport = s.mport ∧ (s.takeInterval i a).nint = s.nint ∧
    (s.takeInterval i a).intakeReady = s.intakeReady ∧ (s.takeInterval i a).out = s.out ∧
    (s.takeInterval i a).pending = s.pending := by
  refine ⟨?_, ?_, ?_, ?_, ?_, ?_, ?_, ?_, ?_, ?_, ?_⟩ <;> (unfold State.takeInterval; repeat' split) <;> simp

@[simp] theorem State.expireInterval_frame (s : State) (i : Slot) :
    (s.expireInterval i).presented = s.presented ∧ (s.expireInterval i).idmap = s.idmap ∧
    (s.expireInterval i).rstore = s.rstore ∧ (s.expireInterval i).icls = s.icls ∧
    (s.expireInterval i).resp = s.resp ∧ (s.expireInterval i).cmde = s.cmde ∧
    (s.expireInterval i).mport = s.mport ∧ (s.expireInterval i).nint = s.nint ∧
    (s.expireInterval i).intakeReady = s.intakeReady ∧ (s.expireInterval i).out = s.out ∧
    (s.expireInterval i).pending = s.pending := by
  refine ⟨?_, ?_, ?_, ?_, ?_, ?_, ?_, ?_, ?_, ?_, ?_⟩ <;> (unfold State.expireInterval; repeat' split) <;> simp

@[simp] theorem State.writeTiming_frame (s : State) (f : TimingField) (b : Byte) :
    (s.writeTiming f b).stab = s.stab ∧ (s.writeTiming f b).presented = s.presented ∧
    (s.writeTiming f b).idmap = s.idmap ∧ (s.writeTiming f b).rstore = s.rstore ∧
    (s.writeTiming f b).icls = s.icls ∧ (s.writeTiming f b).resp = s.resp ∧ (s.writeTiming f b).wake = s.wake ∧
    (s.writeTiming f b).hold = s.hold ∧ (s.writeTiming f b).emit = s.emit ∧
    (s.writeTiming f b).steer = s.steer ∧ (s.writeTiming f b).cmde = s.cmde ∧ (s.writeTiming f b).nq = s.nq ∧
    (s.writeTiming f b).nint = s.nint ∧ (s.writeTiming f b).intakeReady = s.intakeReady ∧
    (s.writeTiming f b).out = s.out ∧ (s.writeTiming f b).pending = s.pending := by
  unfold State.writeTiming; split <;> simp

@[simp] theorem State.writeNotice_frame (s : State) (f : NoticeField) (b : Byte) :
    (s.writeNotice f b).stab = s.stab ∧ (s.writeNotice f b).presented = s.presented ∧
    (s.writeNotice f b).idmap = s.idmap ∧ (s.writeNotice f b).rstore = s.rstore ∧
    (s.writeNotice f b).icls = s.icls ∧ (s.writeNotice f b).resp = s.resp ∧ (s.writeNotice f b).wake = s.wake ∧
    (s.writeNotice f b).hold = s.hold ∧ (s.writeNotice f b).emit = s.emit ∧
    (s.writeNotice f b).steer = s.steer ∧ (s.writeNotice f b).cmde = s.cmde ∧ (s.writeNotice f b).nq = s.nq ∧
    (s.writeNotice f b).nint = s.nint ∧ (s.writeNotice f b).intakeReady = s.intakeReady ∧
    (s.writeNotice f b).out = s.out ∧ (s.writeNotice f b).pending = s.pending := by
  unfold State.writeNotice; split <;> simp

@[simp] theorem State.takeRecognition_frame (s : State) (w : Nat → Option Byte) :
    (s.takeRecognition w).stab = s.stab ∧ (s.takeRecognition w).presented = s.presented ∧
    (s.takeRecognition w).idmap = s.idmap ∧ (s.takeRecognition w).rstore = s.rstore ∧
    (s.takeRecognition w).icls = s.icls ∧ (s.takeRecognition w).resp = s.resp ∧
    (s.takeRecognition w).wake = s.wake ∧ (s.takeRecognition w).hold = s.hold ∧
    (s.takeRecognition w).emit = s.emit ∧ (s.takeRecognition w).steer = s.steer ∧
    (s.takeRecognition w).cmde = s.cmde ∧ (s.takeRecognition w).nq = s.nq ∧
    (s.takeRecognition w).nint = s.nint ∧ (s.takeRecognition w).intakeReady = s.intakeReady ∧
    (s.takeRecognition w).out = s.out ∧ (s.takeRecognition w).pending = s.pending := by
  refine ⟨?_, ?_, ?_, ?_, ?_, ?_, ?_, ?_, ?_, ?_, ?_, ?_, ?_, ?_, ?_, ?_⟩ <;> (simp only [State.takeRecognition]; repeat' split) <;> simp

@[simp] theorem State.writeRecognition_frame (s : State) (w : Nat → Option Byte) :
    (s.writeRecognition w).stab = s.stab ∧ (s.writeRecognition w).presented = s.presented ∧
    (s.writeRecognition w).idmap = s.idmap ∧ (s.writeRecognition w).rstore = s.rstore ∧
    (s.writeRecognition w).icls = s.icls ∧ (s.writeRecognition w).resp = s.resp ∧
    (s.writeRecognition w).wake = s.wake ∧ (s.writeRecognition w).hold = s.hold ∧
    (s.writeRecognition w).emit = s.emit ∧ (s.writeRecognition w).steer = s.steer ∧
    (s.writeRecognition w).cmde = s.cmde ∧ (s.writeRecognition w).nq = s.nq ∧
    (s.writeRecognition w).nint = s.nint ∧ (s.writeRecognition w).intakeReady = s.intakeReady ∧
    (s.writeRecognition w).out = s.out ∧ (s.writeRecognition w).pending = s.pending := by
  refine ⟨?_, ?_, ?_, ?_, ?_, ?_, ?_, ?_, ?_, ?_, ?_, ?_, ?_, ?_, ?_, ?_⟩ <;> (unfold State.writeRecognition; repeat' split) <;> simp

@[simp] theorem State.writeFields_frame (s : State) (w : Nat → Option Byte) :
    (s.writeFields w).stab = s.stab ∧ (s.writeFields w).presented = s.presented ∧
    (s.writeFields w).idmap = s.idmap ∧ (s.writeFields w).rstore = s.rstore ∧ (s.writeFields w).icls = s.icls ∧
    (s.writeFields w).resp = s.resp ∧ (s.writeFields w).wake = s.wake ∧ (s.writeFields w).hold = s.hold ∧
    (s.writeFields w).emit = s.emit ∧ (s.writeFields w).steer = s.steer ∧ (s.writeFields w).cmde = s.cmde ∧
    (s.writeFields w).nq = s.nq ∧ (s.writeFields w).nint = s.nint ∧
    (s.writeFields w).intakeReady = s.intakeReady ∧ (s.writeFields w).out = s.out ∧
    (s.writeFields w).pending = s.pending := by
  refine ⟨?_, ?_, ?_, ?_, ?_, ?_, ?_, ?_, ?_, ?_, ?_, ?_, ?_, ?_, ?_, ?_⟩ <;> (simp only [State.writeFields, List.foldl, whenWritten]; repeat' split) <;> simp

@[simp] theorem State.writeRegisters_frame (s : State) (w : Nat → Option Byte) :
    (s.writeRegisters w).stab = s.stab ∧ (s.writeRegisters w).presented = s.presented ∧
    (s.writeRegisters w).idmap = s.idmap ∧ (s.writeRegisters w).rstore = s.rstore ∧
    (s.writeRegisters w).icls = s.icls ∧ (s.writeRegisters w).resp = s.resp ∧
    (s.writeRegisters w).wake = s.wake ∧ (s.writeRegisters w).hold = s.hold ∧
    (s.writeRegisters w).emit = s.emit ∧ (s.writeRegisters w).steer = s.steer ∧
    (s.writeRegisters w).cmde = s.cmde ∧ (s.writeRegisters w).nq = s.nq ∧ (s.writeRegisters w).nint = s.nint ∧
    (s.writeRegisters w).intakeReady = s.intakeReady ∧ (s.writeRegisters w).out = s.out ∧
    (s.writeRegisters w).pending = s.pending := by
  refine ⟨?_, ?_, ?_, ?_, ?_, ?_, ?_, ?_, ?_, ?_, ?_, ?_, ?_, ?_, ?_, ?_⟩ <;> (simp only [State.writeRegisters, whenWritten]; repeat' split) <;> simp

@[simp] theorem State.takeClear_frame (s : State) (f : StickyFlag) :
    (s.takeClear f).stab = s.stab ∧ (s.takeClear f).presented = s.presented ∧ (s.takeClear f).idmap = s.idmap ∧
    (s.takeClear f).rstore = s.rstore ∧ (s.takeClear f).icls = s.icls ∧ (s.takeClear f).resp = s.resp ∧
    (s.takeClear f).wake = s.wake ∧ (s.takeClear f).hold = s.hold ∧ (s.takeClear f).emit = s.emit ∧
    (s.takeClear f).steer = s.steer ∧ (s.takeClear f).nint = s.nint ∧
    (s.takeClear f).intakeReady = s.intakeReady ∧ (s.takeClear f).out = s.out ∧
    (s.takeClear f).pending = s.pending := by
  simp [State.takeClear]

@[simp] theorem State.abortTransfer_frame (s : State) :
    (s.abortTransfer).stab = s.stab ∧ (s.abortTransfer).presented = s.presented ∧
    (s.abortTransfer).idmap = s.idmap ∧ (s.abortTransfer).rstore = s.rstore ∧ (s.abortTransfer).icls = s.icls ∧
    (s.abortTransfer).resp = s.resp ∧ (s.abortTransfer).wake = s.wake ∧ (s.abortTransfer).hold = s.hold ∧
    (s.abortTransfer).emit = s.emit ∧ (s.abortTransfer).steer = s.steer ∧ (s.abortTransfer).cmde = s.cmde ∧
    (s.abortTransfer).nq = s.nq ∧ (s.abortTransfer).mport = s.mport ∧ (s.abortTransfer).nint = s.nint ∧
    (s.abortTransfer).intakeReady = s.intakeReady ∧ (s.abortTransfer).pending = s.pending := by
  unfold State.abortTransfer; split <;> simp

/-! ### Operations whose result is optional -/

/-- What an append to the emission queue does when it is taken (R133). -/
theorem Emit.append_some {e e' : Emit} {x : Entry} (h : e.append x = some e') :
    e.size < Config.emissionCapacity ∧ e' = { e with waiting := e.waiting ++ [x] } := by
  unfold Emit.append at h
  split at h
  · next hs => exact ⟨hs, (Option.some.inj h).symm⟩
  · cases h

/-- An append is refused exactly when the queue holds 16 entries (R133). -/
theorem Emit.append_none {e : Emit} {x : Entry} : e.append x = none ↔ Config.emissionCapacity ≤ e.size := by
  unfold Emit.append
  split
  · next hs => simp; omega
  · next hs => simp; omega

/-- What a pass-through does when it is taken (R94). -/
theorem State.passThrough_some {s t : State} {j : Fin 4} {f : Frame} {p : Port} {g : Segment}
    (h : s.passThrough j f p g = some t) :
    s.emit.size < Config.emissionCapacity ∧
      t = { s with emit := { s.emit with waiting := s.emit.waiting ++ [{ kind := .pass j, port := p, segment := g }] }
                   icls := { s.icls with slots := tset s.icls.slots j (.passing f) } } := by
  unfold State.passThrough at h
  split at h
  · next e he =>
    obtain ⟨hs, rfl⟩ := Emit.append_some he
    exact ⟨hs, (Option.some.inj h).symm⟩
  · cases h

theorem State.passThrough_none {s : State} {j : Fin 4} {f : Frame} {p : Port} {g : Segment} :
    s.passThrough j f p g = none ↔ Config.emissionCapacity ≤ s.emit.size := by
  unfold State.passThrough
  split
  · next e he => obtain ⟨hs, -⟩ := Emit.append_some he; simp; omega
  · next he => simp [Emit.append_none.mp he]

/-- What a claim of a buffer and a place does when both are there (R99). -/
theorem State.claimAnswer_ok {s t : State} {l : List Byte} {p : Port} {g : Segment}
    (h : s.claimAnswer l p g = .ok t) :
    ∃ b, lowest (fun b => b.isNone) s.resp.buffers = some b ∧ s.emit.size < Config.emissionCapacity ∧
      t = { s with emit := { s.emit with waiting := s.emit.waiting ++ [{ kind := .answer b, port := p, segment := g }] }
                   resp := { s.resp with buffers := tset s.resp.buffers b (some l) } } := by
  unfold State.claimAnswer at h
  split at h
  · cases h
  · next b hb =>
    split at h
    · cases h
    · next e he =>
      obtain ⟨hs, rfl⟩ := Emit.append_some he
      exact ⟨b, hb, hs, (Except.ok.inj h).symm⟩

/-- Why a claim fails (R99): no buffer, or else no place. -/
theorem State.claimAnswer_error {s : State} {l : List Byte} {p : Port} {g : Segment} {w : DropCause}
    (h : s.claimAnswer l p g = .error w) :
    (lowest (fun b => b.isNone) s.resp.buffers = none ∧ w = .noBuffer) ∨
      ((lowest (fun b => b.isNone) s.resp.buffers).isSome = true ∧ Config.emissionCapacity ≤ s.emit.size ∧ w = .noPlace) := by
  unfold State.claimAnswer at h
  split at h
  · next hb => exact Or.inl ⟨hb, (Except.error.inj h).symm⟩
  · next b hb =>
    split at h
    · next he => exact Or.inr ⟨by simp [hb], Emit.append_none.mp he, (Except.error.inj h).symm⟩
    · cases h

@[simp] theorem State.passOrShed_frame (s : State) (i : Slot) (st : Station) (j : Fin 4) (f : Frame) :
    (s.passOrShed i st j f).presented = s.presented ∧ (s.passOrShed i st j f).idmap = s.idmap ∧
    (s.passOrShed i st j f).rstore = s.rstore ∧ (s.passOrShed i st j f).resp = s.resp ∧
    (s.passOrShed i st j f).wake = s.wake ∧ (s.passOrShed i st j f).hold = s.hold ∧
    (s.passOrShed i st j f).steer = s.steer ∧ (s.passOrShed i st j f).cmde = s.cmde ∧
    (s.passOrShed i st j f).nq = s.nq ∧ (s.passOrShed i st j f).mport = s.mport ∧
    (s.passOrShed i st j f).nint = s.nint ∧ (s.passOrShed i st j f).intakeReady = s.intakeReady ∧
    (s.passOrShed i st j f).out = s.out ∧ (s.passOrShed i st j f).pending = s.pending := by
  unfold State.passOrShed
  split
  · next t h => obtain ⟨-, rfl⟩ := State.passThrough_some h; simp
  · simp

@[simp] theorem State.iclsTrigger_frame (s : State) (i : Slot) (st : Station) (c : WakeCause) (j : Option (Fin 4)) :
    (s.iclsTrigger i st c j).presented = s.presented ∧ (s.iclsTrigger i st c j).idmap = s.idmap ∧
    (s.iclsTrigger i st c j).rstore = s.rstore ∧ (s.iclsTrigger i st c j).resp = s.resp ∧
    (s.iclsTrigger i st c j).steer = s.steer ∧ (s.iclsTrigger i st c j).cmde = s.cmde ∧
    (s.iclsTrigger i st c j).mport = s.mport ∧ (s.iclsTrigger i st c j).nint = s.nint ∧
    (s.iclsTrigger i st c j).intakeReady = s.intakeReady ∧ (s.iclsTrigger i st c j).out = s.out ∧
    (s.iclsTrigger i st c j).pending = s.pending := by
  refine ⟨?_, ?_, ?_, ?_, ?_, ?_, ?_, ?_, ?_, ?_, ?_⟩ <;> (unfold State.iclsTrigger; repeat' split) <;> simp

@[simp] theorem State.answer_frame (s : State) (job : AnswerJob) :
    (s.answer job).presented = s.presented ∧ (s.answer job).idmap = s.idmap ∧
    (s.answer job).rstore = s.rstore ∧ (s.answer job).icls = s.icls ∧ (s.answer job).wake = s.wake ∧
    (s.answer job).hold = s.hold ∧ (s.answer job).steer = s.steer ∧ (s.answer job).cmde = s.cmde ∧
    (s.answer job).mport = s.mport ∧ (s.answer job).nint = s.nint ∧
    (s.answer job).intakeReady = s.intakeReady ∧ (s.answer job).out = s.out ∧
    (s.answer job).pending = s.pending := by
  unfold State.answer
  split
  · simp
  · split
    · simp
    · split
      · simp
      · next t h => obtain ⟨b, -, -, rfl⟩ := State.claimAnswer_ok h; simp

@[simp] theorem State.acknowledge_frame (s : State) (job : AckJob) :
    (s.acknowledge job).stab = s.stab ∧ (s.acknowledge job).presented = s.presented ∧
    (s.acknowledge job).idmap = s.idmap ∧ (s.acknowledge job).rstore = s.rstore ∧
    (s.acknowledge job).icls = s.icls ∧ (s.acknowledge job).wake = s.wake ∧ (s.acknowledge job).hold = s.hold ∧
    (s.acknowledge job).steer = s.steer ∧ (s.acknowledge job).cmde = s.cmde ∧
    (s.acknowledge job).mport = s.mport ∧ (s.acknowledge job).nint = s.nint ∧
    (s.acknowledge job).intakeReady = s.intakeReady ∧ (s.acknowledge job).out = s.out ∧
    (s.acknowledge job).pending = s.pending := by
  simp only [State.acknowledge]
  split
  · simp
  · split
    · simp
    · next t h => obtain ⟨b, -, -, rfl⟩ := State.claimAnswer_ok h; simp

@[simp] theorem State.passFrame_frame (s : State) (j : Fin 4) (f : Frame) (i : Slot) (st : Station) :
    (s.passFrame j f i st).stab = s.stab ∧ (s.passFrame j f i st).idmap = s.idmap ∧
    (s.passFrame j f i st).rstore = s.rstore ∧ (s.passFrame j f i st).resp = s.resp ∧
    (s.passFrame j f i st).wake = s.wake ∧ (s.passFrame j f i st).hold = s.hold ∧
    (s.passFrame j f i st).steer = s.steer ∧ (s.passFrame j f i st).cmde = s.cmde ∧
    (s.passFrame j f i st).nq = s.nq ∧ (s.passFrame j f i st).mport = s.mport ∧
    (s.passFrame j f i st).nint = s.nint ∧ (s.passFrame j f i st).intakeReady = s.intakeReady ∧
    (s.passFrame j f i st).out = s.out ∧ (s.passFrame j f i st).pending = s.pending := by
  unfold State.passFrame
  split
  · next t h => obtain ⟨-, rfl⟩ := State.passThrough_some h; simp
  · simp

@[simp] theorem State.testSteered_frame (s : State) (j : Fin 4) (f : Frame) :
    (s.testSteered j f).stab = s.stab ∧ (s.testSteered j f).idmap = s.idmap ∧
    (s.testSteered j f).rstore = s.rstore ∧ (s.testSteered j f).resp = s.resp ∧
    (s.testSteered j f).wake = s.wake ∧ (s.testSteered j f).hold = s.hold ∧
    (s.testSteered j f).steer = s.steer ∧ (s.testSteered j f).cmde = s.cmde ∧ (s.testSteered j f).nq = s.nq ∧
    (s.testSteered j f).mport = s.mport ∧ (s.testSteered j f).nint = s.nint ∧
    (s.testSteered j f).intakeReady = s.intakeReady ∧ (s.testSteered j f).out = s.out ∧
    (s.testSteered j f).pending = s.pending := by
  refine ⟨?_, ?_, ?_, ?_, ?_, ?_, ?_, ?_, ?_, ?_, ?_, ?_, ?_, ?_⟩ <;> (unfold State.testSteered; repeat' split) <;> simp

@[simp] theorem State.makeTest_frame (s : State) (j : Fin 4) (f : Frame) (c : Classification) :
    (s.makeTest j f c).stab = s.stab ∧ (s.makeTest j f c).idmap = s.idmap ∧
    (s.makeTest j f c).rstore = s.rstore ∧ (s.makeTest j f c).wake = s.wake ∧
    (s.makeTest j f c).hold = s.hold ∧ (s.makeTest j f c).steer = s.steer ∧ (s.makeTest j f c).cmde = s.cmde ∧
    (s.makeTest j f c).mport = s.mport ∧ (s.makeTest j f c).nint = s.nint ∧
    (s.makeTest j f c).intakeReady = s.intakeReady ∧ (s.makeTest j f c).out = s.out ∧
    (s.makeTest j f c).pending = s.pending := by
  unfold State.makeTest
  split <;> simp

@[simp] theorem State.testTag_frame (s : State) (j : Fin 4) (a : Arrived) :
    (s.testTag j a).stab = s.stab ∧ (s.testTag j a).presented = s.presented ∧ (s.testTag j a).idmap = s.idmap ∧
    (s.testTag j a).rstore = s.rstore ∧ (s.testTag j a).resp = s.resp ∧ (s.testTag j a).wake = s.wake ∧
    (s.testTag j a).hold = s.hold ∧ (s.testTag j a).emit = s.emit ∧ (s.testTag j a).steer = s.steer ∧
    (s.testTag j a).cmde = s.cmde ∧ (s.testTag j a).nq = s.nq ∧ (s.testTag j a).mport = s.mport ∧
    (s.testTag j a).nint = s.nint ∧ (s.testTag j a).intakeReady = s.intakeReady ∧ (s.testTag j a).out = s.out ∧
    (s.testTag j a).pending = s.pending := by
  unfold State.testTag
  split <;> simp

@[simp] theorem State.classifyOnce_frame (s : State)  :
    s.classifyOnce.stab = s.stab ∧ s.classifyOnce.idmap = s.idmap ∧ s.classifyOnce.rstore = s.rstore ∧
    s.classifyOnce.wake = s.wake ∧ s.classifyOnce.hold = s.hold ∧ s.classifyOnce.steer = s.steer ∧
    s.classifyOnce.cmde = s.cmde ∧ s.classifyOnce.mport = s.mport ∧ s.classifyOnce.nint = s.nint ∧
    s.classifyOnce.intakeReady = s.intakeReady ∧ s.classifyOnce.out = s.out ∧
    s.classifyOnce.pending = s.pending := by
  refine ⟨?_, ?_, ?_, ?_, ?_, ?_, ?_, ?_, ?_, ?_, ?_, ?_⟩ <;> (unfold State.classifyOnce; repeat' split) <;> simp

@[simp] theorem State.classify_frame (s : State) (n : Nat) :
    (State.classify n s).stab = s.stab ∧ (State.classify n s).idmap = s.idmap ∧
    (State.classify n s).rstore = s.rstore ∧ (State.classify n s).wake = s.wake ∧
    (State.classify n s).hold = s.hold ∧ (State.classify n s).steer = s.steer ∧
    (State.classify n s).cmde = s.cmde ∧ (State.classify n s).mport = s.mport ∧
    (State.classify n s).nint = s.nint ∧ (State.classify n s).intakeReady = s.intakeReady ∧
    (State.classify n s).out = s.out ∧ (State.classify n s).pending = s.pending := by
  induction n generalizing s with
  | zero => simp [State.classify]
  | succ n ih =>
    simp only [State.classify]
    split
    · simp
    · have := ih s.classifyOnce; simp [this]

@[simp] theorem State.wakeCommanded_frame (s : State) (i : Slot) (st : Station) :
    (s.wakeCommanded i st).1.presented = s.presented ∧ (s.wakeCommanded i st).1.idmap = s.idmap ∧
    (s.wakeCommanded i st).1.rstore = s.rstore ∧ (s.wakeCommanded i st).1.icls = s.icls ∧
    (s.wakeCommanded i st).1.resp = s.resp ∧ (s.wakeCommanded i st).1.hold = s.hold ∧
    (s.wakeCommanded i st).1.steer = s.steer ∧ (s.wakeCommanded i st).1.cmde = s.cmde ∧
    (s.wakeCommanded i st).1.mport = s.mport ∧ (s.wakeCommanded i st).1.nint = s.nint ∧
    (s.wakeCommanded i st).1.intakeReady = s.intakeReady ∧ (s.wakeCommanded i st).1.out = s.out ∧
    (s.wakeCommanded i st).1.pending = s.pending := by
  unfold State.wakeCommanded
  split <;> simp

@[simp] theorem State.retire_frame (s : State) (i : Slot) (st : Station) :
    (s.retire i st).1.presented = s.presented ∧ (s.retire i st).1.icls = s.icls ∧
    (s.retire i st).1.resp = s.resp ∧ (s.retire i st).1.cmde = s.cmde ∧ (s.retire i st).1.mport = s.mport ∧
    (s.retire i st).1.nint = s.nint ∧ (s.retire i st).1.intakeReady = s.intakeReady ∧
    (s.retire i st).1.out = s.out ∧ (s.retire i st).1.pending = s.pending := by
  unfold State.retire
  split <;> simp

@[simp] theorem State.restartLink_frame (s : State)  :
    s.restartLink.1.stab = s.stab ∧ s.restartLink.1.presented = s.presented ∧ s.restartLink.1.idmap = s.idmap ∧
    s.restartLink.1.rstore = s.rstore ∧ s.restartLink.1.icls = s.icls ∧ s.restartLink.1.resp = s.resp ∧
    s.restartLink.1.wake = s.wake ∧ s.restartLink.1.hold = s.hold ∧ s.restartLink.1.emit = s.emit ∧
    s.restartLink.1.cmde = s.cmde ∧ s.restartLink.1.nq = s.nq ∧ s.restartLink.1.mport = s.mport ∧
    s.restartLink.1.nint = s.nint ∧ s.restartLink.1.intakeReady = s.intakeReady ∧
    s.restartLink.1.pending = s.pending := by
  unfold State.restartLink
  split
  · simp only []
    split <;> simp
  · simp

@[simp] theorem State.sleepCommanded_frame (s : State) (i : Slot) (st : Station) (l : Half) :
    (s.sleepCommanded i st l).1.presented = s.presented ∧ (s.sleepCommanded i st l).1.idmap = s.idmap ∧
    (s.sleepCommanded i st l).1.rstore = s.rstore ∧ (s.sleepCommanded i st l).1.icls = s.icls ∧
    (s.sleepCommanded i st l).1.resp = s.resp ∧ (s.sleepCommanded i st l).1.wake = s.wake ∧
    (s.sleepCommanded i st l).1.hold = s.hold ∧ (s.sleepCommanded i st l).1.emit = s.emit ∧
    (s.sleepCommanded i st l).1.cmde = s.cmde ∧ (s.sleepCommanded i st l).1.nq = s.nq ∧
    (s.sleepCommanded i st l).1.mport = s.mport ∧ (s.sleepCommanded i st l).1.nint = s.nint ∧
    (s.sleepCommanded i st l).1.intakeReady = s.intakeReady ∧ (s.sleepCommanded i st l).1.out = s.out ∧
    (s.sleepCommanded i st l).1.pending = s.pending := by
  refine ⟨?_, ?_, ?_, ?_, ?_, ?_, ?_, ?_, ?_, ?_, ?_, ?_, ?_, ?_, ?_⟩ <;> (unfold State.sleepCommanded; repeat' split) <;> simp

end Sys2Proof.Machine
end

