-- ==== Sys2Proof/Laws/Tables.lean ====
section
/-! SUPPORT. What reading a table gives after writing it; what the lowest-numbered choice and the search by address say; the station and generation of a slot after each change of the Station Table. -/

namespace Sys2Proof.Machine

/-! ### Tables -/

theorem tset_get {α : Type} {n : Nat} (v : Vector α n) (i j : Fin n) (x : α) :
    (tset v i x)[j.val] = if i = j then x else v[j.val] := by
  unfold tset
  rw [Vector.getElem_set]
  simp [Fin.ext_iff]

@[simp] theorem tset_get_self {α : Type} {n : Nat} (v : Vector α n) (i : Fin n) (x : α) : (tset v i x)[i.val] = x := by
  simp [tset_get]

theorem tset_get_ne {α : Type} {n : Nat} (v : Vector α n) {i j : Fin n} (x : α) (h : i ≠ j) :
    (tset v i x)[j.val] = v[j.val] := by
  simp [tset_get, h]

@[simp] theorem tmap_get {α : Type} {n : Nat} (f : α → α) (v : Vector α n) (j : Fin n) :
    (tmap f v)[j.val] = f v[j.val] := by
  simp [tmap]

/-- The lowest place satisfies the test and no lower one does. -/
theorem lowest_some {α : Type} {n : Nat} {p : α → Bool} {v : Vector α n} {i : Fin n} (h : lowest p v = some i) :
    p v[i.val] = true ∧ ∀ j : Fin n, j < i → p v[j.val] = false := by
  unfold lowest at h
  rw [List.find?_eq_some_iff_getElem] at h
  obtain ⟨hp, k, hk, hik, hlow⟩ := h
  refine ⟨hp, fun j hj => ?_⟩
  have hk' : k = i.val := by simpa [Fin.ext_iff] using hik
  have := hlow j.val (by simpa [hk'] using hj)
  simpa using this

theorem lowest_none {α : Type} {n : Nat} {p : α → Bool} {v : Vector α n} :
    lowest p v = none ↔ ∀ j : Fin n, p v[j.val] = false := by
  simp [lowest, List.find?_eq_none]

/-! ### Stations and generations of slots -/

theorem State.station_of_stab {s t : State} (h : t.stab = s.stab) (i : Slot) : t.station i = s.station i := by
  simp [State.station, h]

theorem State.generation_of_stab {s t : State} (h : t.stab = s.stab) (i : Slot) : t.generation i = s.generation i := by
  simp [State.generation, h]

theorem State.setRecord_station (s : State) (i j : Slot) (r : Record) :
    (s.setRecord i r).station j = if i = j then r.station else s.station j := by
  simp only [State.station, State.setRecord_stab, tset_get]
  split <;> rfl

theorem State.setStation_station (s : State) (i j : Slot) (st : Station) :
    (s.setStation i st).station j = if i = j then some st else s.station j :=
  State.setRecord_station s i j _

@[simp] theorem State.setStation_station_self (s : State) (i : Slot) (st : Station) :
    (s.setStation i st).station i = some st := by
  simp [State.setStation_station]

@[simp] theorem State.setStation_generation (s : State) (i j : Slot) (st : Station) :
    (s.setStation i st).generation j = s.generation j := by
  simp only [State.generation, State.setStation_stab, tset_get]
  split
  · next h => subst h; rfl
  · rfl

theorem State.updateStation_station (s : State) (i j : Slot) (f : Station → Station) :
    (s.updateStation i f).station j = if i = j then (s.station j).map f else s.station j := by
  unfold State.updateStation
  split
  · next st h =>
    rw [State.setStation_station]
    split
    · next e => subst e; simp [h]
    · rfl
  · next h =>
    split
    · next e => subst e; simp [h]
    · rfl

@[simp] theorem State.updateStation_generation (s : State) (i j : Slot) (f : Station → Station) :
    (s.updateStation i f).generation j = s.generation j := by
  unfold State.updateStation
  split <;> simp

theorem State.setStationState_station (s : State) (i j : Slot) (q : StationState) :
    (s.setStationState i q).station j =
      if i = j then (s.station j).map (fun st => { st with state := q }) else s.station j :=
  State.updateStation_station s i j _

@[simp] theorem State.setStationState_generation (s : State) (i j : Slot) (q : StationState) :
    (s.setStationState i q).generation j = s.generation j :=
  State.updateStation_generation s i j _

theorem State.raiseShed_station (s : State) (i j : Slot) :
    (s.raiseShed i).station j =
      if i = j then (s.station j).map (fun st => { st with framesShed := saturate16 st.framesShed }) else s.station j :=
  State.updateStation_station s i j _

theorem State.vacate_station (s : State) (i j : Slot) (st : Station) :
    (s.vacate i st).station j = if i = j then none else s.station j := by
  simp only [State.station, State.vacate_stab, tset_get]
  split <;> rfl

theorem State.vacate_generation (s : State) (i j : Slot) (st : Station) :
    (s.vacate i st).generation j = if i = j then s.generation j + 1#8 else s.generation j := by
  simp only [State.generation, State.vacate_stab, tset_get]
  split
  · next h => subst h; rfl
  · rfl

theorem State.passSeconds_station (s : State) (n : Nat) (i : Slot) :
    (s.passSeconds n).station i = (s.station i).map fun st => { st with state := st.state.passSeconds n } := by
  simp [State.station, Record.passSeconds]

/-! ### Searching by address (R4, R20) -/

/-- A search that finds gives an enrolled record with the address. -/
theorem State.findAddress_some {s : State} {a : Address} {i : Slot} {st : Station}
    (h : s.findAddress a = some (i, st)) : s.station i = some st ∧ st.address = a := by
  unfold State.findAddress at h
  obtain ⟨j, -, hj⟩ := List.exists_of_findSome?_eq_some h
  split at hj
  · next st' hst =>
    split at hj
    · next ha => simp only [Option.some.injEq, Prod.mk.injEq] at hj; obtain ⟨rfl, rfl⟩ := hj; exact ⟨hst, ha⟩
    · cases hj
  · cases hj

/-- A search that does not find says that no enrolled record has the address. -/
theorem State.findAddress_none {s : State} {a : Address} (h : s.findAddress a = none) (i : Slot) (st : Station)
    (hi : s.station i = some st) : st.address ≠ a := by
  unfold State.findAddress at h
  rw [List.findSome?_eq_none_iff] at h
  have := h i (List.mem_finRange i)
  rw [hi] at this
  simpa using this

theorem State.matched_some {s : State} {i : Slot} {a : Address} {st : Station} (h : s.matched i a = some st) :
    s.station i = some st ∧ st.address = a := by
  unfold State.matched at h
  split at h
  · next st' hst =>
    split at h
    · next ha => simp only [Option.some.injEq] at h; subst h; exact ⟨hst, ha⟩
    · cases h
  · cases h

/-! ### Counters (R17) -/

/-- A counter at its greatest value stays there. -/
theorem saturate16_top : saturate16 0xFFFF#16 = 0xFFFF#16 := by decide

/-- A counter below its greatest value is raised by 1. -/
theorem saturate16_toNat (c : Half) : (saturate16 c).toNat = min 65535 (c.toNat + 1) := by
  unfold saturate16
  split
  · next h => subst h; decide
  · next h =>
    have h1 : c.toNat ≠ 65535 := fun e => h (BitVec.eq_of_toNat_eq (by simpa using e))
    have h2 := c.isLt
    rw [BitVec.toNat_add, show (1#16 : BitVec 16).toNat = 1 from rfl, Nat.mod_eq_of_lt (by omega)]
    omega

theorem saturate8_toNat (b : Byte) (n : Nat) : (saturate8 b n).toNat = min 255 (b.toNat + n) := by
  unfold saturate8
  rw [BitVec.toNat_ofNat, Nat.mod_eq_of_lt (by omega)]

end Sys2Proof.Machine
end

