-- ==== Sys2Proof/Laws/Commands.lean ====
section
/-! SUPPORT. The execution of a command: what a row keeps if its event keeps it, how handles and ordered checks decide, and how a step and a meaning answer. -/

namespace Sys2Proof.Machine

/-! ### Outcomes -/

theorem settle_next {s t : State} : settle s = .next t ↔ t = s.drivePins := by
  simp only [settle, Host.Outcome.next.injEq]
  exact eq_comm

/-- A step with a command at the front of the queue is that command on the queue's rest. -/
theorem step_cons {s : State} {c : Instr} {rest : List Instr} (h : s.pending = c :: rest) :
    step s = exec c { s with pending := rest } := by
  unfold step
  rw [h]

/-! ### Rows (R169) -/

/-- What the three steps of an execution keep: whatever the row's event keeps and the engine's own
fields do not touch. -/
theorem State.execute_keeps {P : State → Prop} {s : State} {c : Memory} {p : Progress} {checks : Checks}
    {event : Event} (upTo : CommandStage) (hprog : ∀ u q, P u → P (u.setProgress c q))
    (hcomp : ∀ u r, P u → P (u.complete c r)) (hevent : P (event s c).1) (hs : P s) :
    P (s.execute c p checks event upTo) := by
  have hrun : ∀ q, P (runEvent event s c q).1 := by
    intro q
    cases q <;> simp only [runEvent] <;> assumption
  have hend : ∀ u q, P u → P (runCompletion u c q) := by
    intro u q hu
    cases q <;> simp only [runCompletion]
    · exact hu
    · exact hu
    · exact hcomp _ _ hu
  unfold State.execute
  cases upTo
  · exact hprog _ _ hs
  · exact hprog _ _ (hrun _)
  · exact hend _ _ (hrun _)

/-- What a row keeps. -/
theorem runRow_keeps {P : State → Prop} {accepts : Byte → Bool} {checks : Checks} {event : Event}
    {upTo : CommandStage} {s t : State} (hpins : ∀ u, P u → P u.drivePins)
    (hprog : ∀ u c q, P u → P (u.setProgress c q)) (hcomp : ∀ u c r, P u → P (u.complete c r))
    (hevent : ∀ c, P (event s c).1) (hs : P s) (h : runRow accepts checks event upTo s = .next t) : P t := by
  unfold runRow at h
  split at h
  · rw [settle_next.mp h]; exact hpins _ hs
  · next c p _ =>
    split at h
    · rw [settle_next.mp h]
      exact hpins _ (State.execute_keeps upTo (fun u q => hprog u c q) (fun u r => hcomp u c r) (hevent c) hs)
    · rw [settle_next.mp h]; exact hpins _ hs

/-- A row carried to its completion on the command just latched: the checks decide, or the event does,
and the result record is written. -/
theorem runRow_latched {accepts : Byte → Bool} {checks : Checks} {event : Event} {s : State} {c : Memory}
    (hs : s.cmde.engine = .busy c .latched) (ha : accepts (commandCode c) = true) :
    runRow accepts checks event .completion s = settle (match checks s c with
      | some code => s.complete c (reply code)
      | none => (event s c).1.complete c (event s c).2) := by
  unfold runRow
  rw [hs]
  simp only [ha, if_true, State.execute, runChecks, afterChecks]
  cases checks s c <;> rfl

/-- A row whose checks have passed, carried to its completion. -/
theorem runRow_checked {accepts : Byte → Bool} {checks : Checks} {event : Event} {s : State} {c : Memory}
    (hs : s.cmde.engine = .busy c .checked) (ha : accepts (commandCode c) = true) :
    runRow accepts checks event .completion s = settle ((event s c).1.complete c (event s c).2) := by
  unfold runRow
  rw [hs]
  simp only [ha, if_true, State.execute, runChecks]
  rfl

/-! ### Handles and ordered checks (R12, 10.2) -/

theorem firstFailed_none {l : List (Bool × ResultCode)} : firstFailed l = none ↔ ∀ x ∈ l, x.1 = false := by
  induction l with
  | nil => simp [firstFailed]
  | cons x r ih =>
    obtain ⟨b, k⟩ := x
    cases b <;> simp [firstFailed, ih]

theorem firstFailed_mem {l : List (Bool × ResultCode)} {k : ResultCode} (h : firstFailed l = some k) : (true, k) ∈ l := by
  induction l with
  | nil => cases h
  | cons x r ih =>
    obtain ⟨b, k'⟩ := x
    cases b
    · simp only [firstFailed] at h; exact List.mem_cons_of_mem _ (ih h)
    · simp only [firstFailed, if_true, Option.some.injEq] at h; subst h; exact List.mem_cons_self

theorem guarded_keeps {P : State → Prop} {l : List (Bool × ResultCode)} {s : State} {e : State × Reply} (hs : P s)
    (he : firstFailed l = none → P e.1) : P (guarded l s e).1 := by
  unfold guarded
  split
  · exact hs
  · next h => exact he h

theorem withHandle_keeps {P : State → Prop} {f : State → Slot → Station → State × Reply} {s : State} {c : Memory}
    (hs : P s) (hf : ∀ i st, s.station i = some st → s.generation i = generationByte c → P (f s i st).1) :
    P (withHandle f s c).1 := by
  unfold withHandle
  split
  · simp only []
    split
    · exact hs
    · next hg =>
      split
      · exact hs
      · next st hst => exact hf _ st hst (not_not.mp hg)
  · exact hs

theorem withRule_keeps {P : State → Prop} {n : Nat} {s : State} {f : RuleNumber → State × Reply} (hs : P s)
    (hf : ∀ k : RuleNumber, k.val = n → P (f k).1) : P (withRule n s f).1 := by
  unfold withRule
  split
  · exact hf _ rfl
  · exact hs

/-- A handle that resolves (R12). -/
theorem withHandle_resolved {f : State → Slot → Station → State × Reply} {s : State} {c : Memory} {i : Slot}
    {st : Station} (hi : slotByte c = i.val) (hg : s.generation i = generationByte c) (hst : s.station i = some st) :
    withHandle f s c = f s i st := by
  have hlt : slotByte c < 64 := by rw [hi]; exact i.isLt
  unfold withHandle
  rw [dif_pos hlt]
  have e : (⟨slotByte c, hlt⟩ : Slot) = i := Fin.ext hi
  simp only [e, hg, hst, ne_eq, not_true_eq_false, if_false]

end Sys2Proof.Machine
end

