-- ==== Sys2Proof/Laws/Emission.lean ====
section
/-! SUPPORT. The emission queue: what its entries refer to after an append, a withdrawal and an end, and that each keeps R96 and R131. -/

namespace Sys2Proof.Machine

/-! ### What the entries refer to -/

theorem Emit.size_eq_length (e : Emit) : e.size = e.entries.length := by
  unfold Emit.size Emit.entries
  cases h : e.sending <;> simp [Nat.add_comm]

theorem Emit.entries_waiting (e : Emit) (l : List Entry) :
    ({ e with waiting := l } : Emit).entries = ({ e with waiting := [] } : Emit).entries ++ l := by
  simp [Emit.entries]

theorem Emit.size_withdraw (e : Emit) (i : Slot) (a : Address) : (e.withdraw i a).size ≤ e.size := by
  have := List.length_filter_le (fun x : Entry => !x.isWakeOf i a) e.waiting
  exact Nat.add_le_add_left this _

theorem filterMap_withdraw {β : Type} (f : Entry → Option β)
    (hf : ∀ i a p g, f { kind := .wake i a, port := p, segment := g } = none)
    (l : List Entry) (i : Slot) (a : Address) :
    (l.filter fun x => !x.isWakeOf i a).filterMap f = l.filterMap f := by
  induction l with
  | nil => rfl
  | cons x r ih =>
    by_cases h : x.isWakeOf i a = true
    · have hx : f x = none := by
        obtain ⟨k, p, g⟩ := x
        simp only [Entry.isWakeOf, decide_eq_true_eq] at h
        subst h
        exact hf i a p g
      simp [h, ih, hx]
    · simp [h, List.filterMap_cons, ih]

@[simp] theorem Emit.answers_withdraw (e : Emit) (i : Slot) (a : Address) : (e.withdraw i a).answers = e.answers := by
  simp only [Emit.answers, Emit.entries, Emit.withdraw, List.filterMap_append]
  rw [filterMap_withdraw]
  intros; rfl

@[simp] theorem Emit.helds_withdraw (e : Emit) (i : Slot) (a : Address) : (e.withdraw i a).helds = e.helds := by
  simp only [Emit.helds, Emit.entries, Emit.withdraw, List.filterMap_append]
  rw [filterMap_withdraw]
  intros; rfl

@[simp] theorem Emit.passes_withdraw (e : Emit) (i : Slot) (a : Address) : (e.withdraw i a).passes = e.passes := by
  simp only [Emit.passes, Emit.entries, Emit.withdraw, List.filterMap_append]
  rw [filterMap_withdraw]
  intros; rfl

theorem Emit.answers_append (e : Emit) (x : Entry) :
    ({ e with waiting := e.waiting ++ [x] } : Emit).answers = e.answers ++ x.answerBuffer.toList := by
  simp only [Emit.answers, Emit.entries, ← List.append_assoc, List.filterMap_append]
  cases h : x.answerBuffer <;> simp [h]

theorem Emit.helds_append (e : Emit) (x : Entry) :
    ({ e with waiting := e.waiting ++ [x] } : Emit).helds = e.helds ++ x.heldBuffer.toList := by
  simp only [Emit.helds, Emit.entries, ← List.append_assoc, List.filterMap_append]
  cases h : x.heldBuffer <;> simp [h]

theorem Emit.passes_append (e : Emit) (x : Entry) :
    ({ e with waiting := e.waiting ++ [x] } : Emit).passes = e.passes ++ x.passSlot.toList := by
  simp only [Emit.passes, Emit.entries, ← List.append_assoc, List.filterMap_append]
  cases h : x.passSlot <;> simp [h]

theorem Emit.size_append (e : Emit) (x : Entry) : ({ e with waiting := e.waiting ++ [x] } : Emit).size = e.size + 1 := by
  simp [Emit.size, Nat.add_assoc]

/-! ### Answer buffers (R96, R131) -/

theorem AnswersMatch.withdraw {e : Emit} {v} (h : AnswersMatch e v) (i : Slot) (a : Address) : AnswersMatch (e.withdraw i a) v :=
  ⟨(Emit.size_withdraw e i a).trans h.1, by simpa using h.2.1, by simpa using h.2.2⟩

theorem AnswersMatch.append {e e' : Emit} {v x} (h : AnswersMatch e v) (hx : x.answerBuffer = none)
    (ha : e.append x = some e') : AnswersMatch e' v := by
  obtain ⟨hs, rfl⟩ := Emit.append_some ha
  refine ⟨by rw [Emit.size_append]; omega, ?_, ?_⟩
  · rw [Emit.answers_append, hx]; simpa using h.2.1
  · rw [Emit.answers_append, hx]; simpa using h.2.2

theorem AnswersMatch.claim {e : Emit} {v : Vector (Option (List Byte)) 8} {b : Fin 8} {p g l} (h : AnswersMatch e v)
    (hb : lowest (fun b => b.isNone) v = some b) (hs : e.size < Config.emissionCapacity) :
    AnswersMatch { e with waiting := e.waiting ++ [{ kind := .answer b, port := p, segment := g }] } (tset v b (some l)) := by
  have hfree := (lowest_some hb).1
  have hnot : b ∉ e.answers := by
    intro hm
    have := (h.2.2 b).mpr hm
    simp_all
  refine ⟨by rw [Emit.size_append]; omega, ?_, ?_⟩
  · rw [Emit.answers_append]
    simp only [Entry.answerBuffer, Option.toList_some]
    refine List.Nodup.append h.2.1 (List.nodup_singleton _) ?_
    intro k h1 h2
    simp only [List.mem_singleton] at h2
    exact hnot (h2 ▸ h1)
  · intro c
    rw [Emit.answers_append, tset_get]
    simp only [Entry.answerBuffer, Option.toList_some, List.mem_append, List.mem_singleton]
    by_cases hc : b = c
    · subst hc; simp
    · simp [hc, Ne.symm hc, h.2.2 c]

/-- An ended entry's buffer is freed: the entry leaves wherever it stood. -/
theorem AnswersMatch.drop {e e' : Emit} {v : Vector (Option (List Byte)) 8} {x : Entry} (h : AnswersMatch e v)
    (hp : e.entries.Perm (x :: e'.entries)) (s : State) (hv : s.resp.buffers = v) :
    AnswersMatch e' (s.freeResource x.kind).resp.buffers := by
  have hlen : e'.size ≤ e.size := by
    rw [Emit.size_eq_length, Emit.size_eq_length, hp.length_eq]; simp
  have hperm : e.answers.Perm (x.answerBuffer.toList ++ e'.answers) := by
    have := hp.filterMap Entry.answerBuffer
    unfold Emit.answers
    refine this.trans ?_
    cases h : x.answerBuffer <;> simp [h]
  have hnd := hperm.nodup_iff.mp h.2.1
  refine ⟨hlen.trans h.1, (List.nodup_append.mp hnd).2.1, ?_⟩
  intro c
  have hc := h.2.2 c
  rw [hperm.mem_iff] at hc
  obtain ⟨k, p, g⟩ := x
  cases k with
  | answer b =>
    simp only [State.freeResource, Entry.answerBuffer, Option.toList_some, List.singleton_append, List.mem_cons] at hc hnd ⊢
    rw [tset_get, hv]
    by_cases hbc : b = c
    · subst hbc
      simp only [if_true, Option.isSome_none, Bool.false_eq_true, false_iff]
      exact (List.nodup_cons.mp hnd).1
    · simp only [hbc, if_false]; rw [hc]; simp [Ne.symm hbc]
  | wake i a => simpa [State.freeResource, Entry.answerBuffer, hv] using hc
  | held b => simpa [State.freeResource, Entry.answerBuffer, hv] using hc
  | pass j => simpa [State.freeResource, Entry.answerBuffer, hv] using hc

end Sys2Proof.Machine
end

