-- ==== Sys2Proof/Laws/Memory.lean ====
section
/-! SUPPORT. The addressed areas: a write is read back and touches no other offset, and every operation keeps the canonical form. -/

namespace Sys2Proof.Machine

/-! ### Reading after writing -/

theorem Memory.read_of_lt {m : Memory} {low a : Nat} (h : Memory.wfFrom low m = true) (ha : a < low) :
    Memory.read m a = Memory.unlisted := by
  induction m generalizing low with
  | nil => rfl
  | cons x r ih =>
    obtain ⟨k, v⟩ := x
    simp only [Memory.wfFrom, Bool.and_eq_true, decide_eq_true_eq] at h
    have hk : k ≠ a := by omega
    simp only [Memory.read, hk, if_false]
    exact ih h.2 (by omega)

theorem Memory.read_write {m : Memory} {low : Nat} (h : Memory.wfFrom low m = true) (a : Nat) (b : Byte) (c : Nat) :
    Memory.read (Memory.write m a b) c = if c = a then b else Memory.read m c := by
  induction m generalizing low with
  | nil =>
    unfold Memory.write
    split
    · next hb => subst hb; simp [Memory.read]
    · simp only [Memory.read]
      by_cases hc : c = a
      · simp [hc]
      · simp [hc, Ne.symm hc]
  | cons x r ih =>
    obtain ⟨k, v⟩ := x
    simp only [Memory.wfFrom, Bool.and_eq_true, decide_eq_true_eq] at h
    obtain ⟨⟨hk, hv⟩, hr⟩ := h
    unfold Memory.write
    split
    · next hak =>
      split
      · next hb =>
        by_cases hc : c = a
        · have hkc : k ≠ c := by omega
          simp only [hc, if_true, hb, Memory.read]
          rw [if_neg (by omega)]
          exact Memory.read_of_lt hr (by omega)
        · simp [hc]
      · by_cases hc : c = a
        · simp [hc, Memory.read]
        · simp [hc, Memory.read, Ne.symm hc]
    · split
      · next hak =>
        subst hak
        split
        · next hb =>
          by_cases hc : c = a
          · subst hc
            rw [Memory.read_of_lt hr (by omega)]
            simp [hb]
          · simp [hc, Memory.read, Ne.symm hc]
        · by_cases hc : c = a
          · simp [hc, Memory.read]
          · simp [hc, Memory.read, Ne.symm hc]
      · simp only [Memory.read]
        split
        · next hkc => subst hkc; rw [if_neg (by omega)]
        · exact ih hr

/-! ### The canonical form is kept -/

theorem Memory.wfFrom_mono {m : Memory} {low low' : Nat} (hl : low' ≤ low) (h : Memory.wfFrom low m = true) :
    Memory.wfFrom low' m = true := by
  cases m with
  | nil => rfl
  | cons x r =>
    obtain ⟨k, v⟩ := x
    simp only [Memory.wfFrom, Bool.and_eq_true, decide_eq_true_eq] at h ⊢
    exact ⟨⟨by omega, h.1.2⟩, h.2⟩

theorem Memory.write_wfFrom {m : Memory} {low : Nat} (h : Memory.wfFrom low m = true) (a : Nat) (b : Byte)
    (ha : low ≤ a) : Memory.wfFrom low (Memory.write m a b) = true := by
  induction m generalizing low with
  | nil =>
    unfold Memory.write
    split
    · rfl
    · next hb => simp [Memory.wfFrom, ha, hb]
  | cons x r ih =>
    obtain ⟨k, v⟩ := x
    have h0 := h
    simp only [Memory.wfFrom, Bool.and_eq_true, decide_eq_true_eq] at h
    obtain ⟨⟨hk, hv⟩, hr⟩ := h
    unfold Memory.write
    split
    · next hak =>
      split
      · exact h0
      · next hb => simp [Memory.wfFrom, ha, hb, hv, hr]; omega
    · split
      · next hak =>
        split
        · exact Memory.wfFrom_mono (by omega) hr
        · next hb => subst hak; simp [Memory.wfFrom, ha, hb, hr]
      · simp only [Memory.wfFrom, Bool.and_eq_true, decide_eq_true_eq]
        exact ⟨⟨hk, hv⟩, ih hr (by omega)⟩

/-- A write keeps the canonical form. -/
theorem Memory.write_wf {m : Memory} (h : Memory.wf m = true) (a : Nat) (b : Byte) :
    Memory.wf (Memory.write m a b) = true :=
  Memory.write_wfFrom h a b (Nat.zero_le a)

/-- A list of writes keeps the canonical form. -/
theorem Memory.writeBytes_wf {m : Memory} (h : Memory.wf m = true) (a : Nat) (l : List Byte) :
    Memory.wf (Memory.writeBytes m a l) = true := by
  induction l generalizing m a with
  | nil => exact h
  | cons b r ih =>
    unfold Memory.writeBytes
    split
    · exact ih (Memory.write_wf h a b) (a + 1)
    · exact h

/-- An area made from bytes is in canonical form. -/
theorem Memory.ofBytes_wf (l : List Byte) : Memory.wf (Memory.ofBytes l) = true :=
  Memory.writeBytes_wf rfl 0 l

/-- What a list of writes leaves at every offset: the byte written there within the area, else the byte
that was there. -/
theorem Memory.read_writeBytes {m : Memory} (h : Memory.wf m = true) (a : Nat) (l : List Byte) (c : Nat) :
    Memory.read (Memory.writeBytes m a l) c =
      if a ≤ c ∧ c < a + l.length ∧ c < Config.areaSize then l.getD (c - a) 0#8 else Memory.read m c := by
  induction l generalizing m a with
  | nil =>
    simp only [Memory.writeBytes, List.length_nil]
    rw [if_neg (by omega)]
  | cons b r ih =>
    unfold Memory.writeBytes
    split
    · next ha =>
      rw [ih (Memory.write_wf h a b) (a + 1), Memory.read_write h]
      by_cases hc : c = a
      · subst hc
        rw [if_neg (by omega), if_pos rfl, if_pos ⟨by omega, by simp, ha⟩]
        simp
      · by_cases hin : a + 1 ≤ c ∧ c < a + 1 + r.length ∧ c < Config.areaSize
        · rw [if_pos hin, if_pos ⟨by omega, by simp only [List.length_cons]; omega, hin.2.2⟩]
          have : c - a = (c - (a + 1)) + 1 := by omega
          rw [this, List.getD_cons_succ]
        · rw [if_neg hin, if_neg hc, if_neg (by simp only [List.length_cons]; omega)]
    · next ha => rw [if_neg (by omega)]

/-! ### The offsets listed -/

theorem Memory.write_mem {m : Memory} {a : Nat} {b : Byte} {x : Host.Cell} (hx : x ∈ Memory.write m a b) :
    x.1 = a ∨ x ∈ m := by
  induction m with
  | nil =>
    unfold Memory.write at hx
    split at hx
    · simp at hx
    · simp only [List.mem_singleton] at hx; exact Or.inl (by rw [hx])
  | cons y r ih =>
    obtain ⟨k, v⟩ := y
    unfold Memory.write at hx
    split at hx
    · split at hx
      · exact Or.inr hx
      · rcases List.mem_cons.mp hx with e | e
        · exact Or.inl (by rw [e])
        · exact Or.inr e
    · split at hx
      · split at hx
        · exact Or.inr (List.mem_cons_of_mem _ hx)
        · rcases List.mem_cons.mp hx with e | e
          · exact Or.inl (by rw [e])
          · exact Or.inr (List.mem_cons_of_mem _ e)
      · rcases List.mem_cons.mp hx with e | e
        · exact Or.inr (by rw [e]; exact List.mem_cons_self)
        · rcases ih e with e' | e'
          · exact Or.inl e'
          · exact Or.inr (List.mem_cons_of_mem _ e')

/-- Writes stay within the area. -/
theorem Memory.writeBytes_within {m : Memory} (h : ∀ x ∈ m, x.1 < Config.areaSize) (a : Nat) (l : List Byte) :
    ∀ x ∈ Memory.writeBytes m a l, x.1 < Config.areaSize := by
  induction l generalizing m a with
  | nil => exact h
  | cons b r ih =>
    unfold Memory.writeBytes
    split
    · next ha =>
      refine ih (fun x hx => ?_) (a + 1)
      rcases Memory.write_mem hx with e | e
      · omega
      · exact h x e
    · exact h

end Sys2Proof.Machine
end

