-- ==== Sys2Proof/Laws/Notices.lean ====
section
/-! SUPPORT. The notice queue: what a post, a take and an age boundary leave, and that each keeps R188. -/

namespace Sys2Proof.Machine

theorem Notice.coalesce_key {n : Notice} {p : Post} (h : n.key = p.key) : (n.coalesce p).key = n.key := by
  simp only [Notice.key, Post.key, Prod.mk.injEq] at h
  simp [Notice.key, Notice.coalesce, h.2]

/-- R190: a post that finds its key folds into that notice alone, and nothing joins or leaves. -/
theorem Nq.post_present {q : Nq} {p : Post} (h : q.queue.any (fun n => n.key = p.key) = true) :
    q.post p = { q with queue := q.queue.map fun n => if n.key = p.key then n.coalesce p else n } := by
  simp only [Nq.post, h, if_true]

/-- R189: a post whose key is not present joins a queue with room. -/
theorem Nq.post_room {q : Nq} {p : Post} (h : q.queue.any (fun n => n.key = p.key) = false)
    (hl : q.queue.length < Config.noticeCapacity) : q.post p = q.join p := by
  simp only [Nq.post, h, hl, if_true]; rfl

theorem evictNewest_sublist (c : NoticeClass) (l : List Notice) : (evictNewest c l).Sublist l := by
  have h := List.eraseP_sublist (p := fun n : Notice => decide (n.noticeClass = c)) (l := l.reverse)
  have := h.reverse
  simpa [evictNewest] using this

theorem evictNewest_length {c : NoticeClass} {l : List Notice} (h : ∃ n ∈ l, n.noticeClass = c) :
    (evictNewest c l).length + 1 = l.length := by
  obtain ⟨n, hn, hc⟩ := h
  have hlen := List.length_eraseP_of_mem (p := fun n : Notice => decide (n.noticeClass = c))
    (List.mem_reverse.mpr hn) (by simpa using hc)
  have hpos : 0 < l.length := List.length_pos_of_mem hn
  simp only [evictNewest, List.length_reverse] at hlen ⊢
  omega

theorem leastUrgent_mem {l : List Notice} {c : NoticeClass} (h : leastUrgent l = some c) :
    ∃ n ∈ l, n.noticeClass = c := by
  unfold leastUrgent at h
  split at h
  · next e => cases h; simpa using e
  · split at h
    · next e => cases h; simpa using e
    · split at h
      · next e => cases h; simpa using e
      · cases h

theorem Nq.join_wellFormed {q : Nq} {p : Post} (h : q.WellFormed) (hk : ∀ n ∈ q.queue, n.key ≠ p.key)
    (hl : q.queue.length < Config.noticeCapacity) : (q.join p).WellFormed := by
  obtain ⟨-, hn, hr⟩ := h
  refine ⟨by simp [Nq.join]; omega, ?_, ?_⟩
  · simp only [Nq.join, List.map_append, List.map_cons, List.map_nil]
    refine List.Nodup.append hn (List.nodup_singleton _) ?_
    intro k h1 h2
    obtain ⟨n, hn1, rfl⟩ := List.mem_map.mp h1
    exact hk n hn1 (by simpa [Notice.key, Post.key] using h2)
  · intro n hn
    simp only [Nq.join, List.mem_append, List.mem_singleton] at hn
    rcases hn with hn | rfl
    · exact hr n hn
    · exact Nat.le_refl 1

/-- R189 to R191: every post keeps R188. -/
theorem Nq.post_wellFormed {q : Nq} (h : q.WellFormed) (p : Post) : (q.post p).WellFormed := by
  unfold Nq.post
  split
  · obtain ⟨hl, hn, hr⟩ := h
    refine ⟨by simpa using hl, ?_, ?_⟩
    · rw [List.map_map]
      have : (Notice.key ∘ fun n => if n.key = p.key then n.coalesce p else n) = Notice.key := by
        funext n
        simp only [Function.comp_apply]
        split
        · next e => exact Notice.coalesce_key e
        · rfl
      rw [this]; exact hn
    · intro n hn'
      obtain ⟨m, hm, rfl⟩ := List.mem_map.mp hn'
      split
      · simp only [Notice.coalesce, saturate8_toNat]; omega
      · exact hr m hm
  · next hk =>
    have hk' : ∀ n ∈ q.queue, n.key ≠ p.key := by simpa using hk
    split
    · next hl => exact Nq.join_wellFormed h hk' hl
    · split
      · next c hc =>
        split
        · have hs := evictNewest_sublist c q.queue
          have hlen := evictNewest_length (leastUrgent_mem hc)
          refine Nq.join_wellFormed ⟨?_, (hs.map Notice.key).nodup h.2.1, fun n hn => h.2.2 n (hs.subset hn)⟩
            (fun n hn => hk' n (hs.subset hn)) ?_
          · have := h.1; show (evictNewest c q.queue).length ≤ _; omega
          · have := h.1; show (evictNewest c q.queue).length < _; omega
        · exact h
      · exact h

/-- R194: a take keeps R188. -/
theorem Nq.dropHead_wellFormed {q : Nq} (h : q.WellFormed) : q.dropHead.WellFormed := by
  unfold Nq.dropHead
  split
  · next c _ =>
    have hs := List.eraseP_sublist (p := fun n : Notice => decide (n.noticeClass = c)) (l := q.queue)
    exact ⟨hs.length_le.trans h.1, (hs.map Notice.key).nodup h.2.1, fun n hn => h.2.2 n (hs.subset hn)⟩
  · exact h

/-- R196: an age boundary keeps R188. -/
theorem Nq.age_wellFormed {q : Nq} (h : q.WellFormed) (n : Nat) :
    ({ q with queue := q.queue.map fun x => { x with age := saturate8 x.age n } } : Nq).WellFormed := by
  refine ⟨by simpa using h.1, ?_, ?_⟩
  · rw [List.map_map]; exact h.2.1
  · intro x hx
    obtain ⟨y, hy, rfl⟩ := List.mem_map.mp hx
    exact h.2.2 y hy

theorem Nq.overrun_wellFormed {q : Nq} (h : q.WellFormed) (b : Bool) : ({ q with overrun := b } : Nq).WellFormed := h

end Sys2Proof.Machine
end

