-- ==== Sys2Proof/Laws/NoticeOps.lean ====
section
/-! SUPPORT. Every composite operation keeps the notice queue well formed (R188). -/

namespace Sys2Proof.Machine

set_option linter.unusedSimpArgs false

@[simp] theorem State.vacate_notices {s : State} (h : s.nq.WellFormed) (i : Slot) (st : Station) :
    (s.vacate i st).nq.WellFormed := by
  simp only [State.vacate]
  all_goals simp [h, Nq.post_wellFormed]

@[simp] theorem State.confirmEntering_notices {s : State} (h : s.nq.WellFormed) (i : Slot) (st : Station) :
    (s.confirmEntering i st).nq.WellFormed := by
  simp only [State.confirmEntering]
  repeat' split
  all_goals simp [h, Nq.post_wellFormed]

@[simp] theorem State.confirmAwake_notices {s : State} (h : s.nq.WellFormed) (i : Slot) :
    (s.confirmAwake i).nq.WellFormed := by
  simp only [State.confirmAwake]
  repeat' split
  all_goals simp [h, Nq.post_wellFormed]

@[simp] theorem State.sleepFromAwake_notices {s : State} (h : s.nq.WellFormed) (i : Slot) (st : Station) (q l : Half) :
    (s.sleepFromAwake i st q l).nq.WellFormed := by
  simp only [State.sleepFromAwake]
  repeat' split
  all_goals simp [h, Nq.post_wellFormed]

@[simp] theorem State.sleepAnnounced_notices {s : State} (h : s.nq.WellFormed) (i : Slot) (q l : Half) :
    (s.sleepAnnounced i q l).nq.WellFormed := by
  simp only [State.sleepAnnounced]
  repeat' split
  all_goals simp [h, Nq.post_wellFormed]

@[simp] theorem State.divertAck_notices {s : State} (h : s.nq.WellFormed) (i : Slot) :
    (s.divertAck i).nq.WellFormed := by
  simp only [State.divertAck]
  repeat' split
  all_goals simp [h, Nq.post_wellFormed]

@[simp] theorem State.divertNak_notices {s : State} (h : s.nq.WellFormed) (i : Slot) (r : NakReason) :
    (s.divertNak i r).nq.WellFormed := by
  simp only [State.divertNak]
  repeat' split
  all_goals simp [h, Nq.post_wellFormed]

@[simp] theorem State.restoreOutcome_notices {s : State} (h : s.nq.WellFormed) (i : Slot) :
    (s.restoreOutcome i).nq.WellFormed := by
  simp only [State.restoreOutcome]
  repeat' split
  all_goals simp [h, Nq.post_wellFormed]

@[simp] theorem State.restoreNak_notices {s : State} (h : s.nq.WellFormed) (i : Slot) (r : NakReason) :
    (s.restoreNak i r).nq.WellFormed := by
  simp only [State.restoreNak]
  all_goals simp [h, Nq.post_wellFormed]

@[simp] theorem State.holdFrame_notices {s : State} (h : s.nq.WellFormed) (i : Slot) (c : WakeCause) (b : List Byte) :
    (s.holdFrame i c b).nq.WellFormed := by
  simp only [State.holdFrame]
  repeat' split
  all_goals simp [h, Nq.post_wellFormed]

@[simp] theorem State.wakeUp_notices {s : State} (h : s.nq.WellFormed) (i : Slot) (st : Station) (c : WakeCause) :
    (s.wakeUp i st c).nq.WellFormed := by
  simp only [State.wakeUp]
  all_goals simp [h, Nq.post_wellFormed]

@[simp] theorem State.iclsTrigger_notices {s : State} (h : s.nq.WellFormed) (i : Slot) (st : Station) (c : WakeCause) (j : Option (Fin 4)) :
    (s.iclsTrigger i st c j).nq.WellFormed := by
  simp only [State.iclsTrigger]
  repeat' split
  all_goals simp [h, Nq.post_wellFormed]

@[simp] theorem State.exhaustWaking_notices {s : State} (h : s.nq.WellFormed) (i : Slot) :
    (s.exhaustWaking i).nq.WellFormed := by
  simp only [State.exhaustWaking]
  repeat' split
  all_goals simp [h, Nq.post_wellFormed]

@[simp] theorem State.retire_notices {s : State} (h : s.nq.WellFormed) (i : Slot) (st : Station) :
    (s.retire i st).1.nq.WellFormed := by
  simp only [State.retire]
  repeat' split
  all_goals simp [h, Nq.post_wellFormed]

@[simp] theorem State.wakeCommanded_notices {s : State} (h : s.nq.WellFormed) (i : Slot) (st : Station) :
    (s.wakeCommanded i st).1.nq.WellFormed := by
  simp only [State.wakeCommanded]
  repeat' split
  all_goals simp [h, Nq.post_wellFormed]

@[simp] theorem State.teardownAt_notices {s : State} (h : s.nq.WellFormed) (i : Slot) :
    (s.teardownAt i).nq.WellFormed := by
  simp only [State.teardownAt]
  repeat' split
  all_goals simp [h, Nq.post_wellFormed]

@[simp] theorem State.teardown_notices {s : State} (h : s.nq.WellFormed) :
    (s.teardown).nq.WellFormed := by
  unfold State.teardown
  generalize List.finRange 64 = l
  induction l generalizing s with
  | nil => exact h
  | cons x r ih => exact ih (State.teardownAt_notices h x)

@[simp] theorem State.takeAnnouncement_notices {s : State} (h : s.nq.WellFormed) (i : Slot) (st : Station) (o : AnnounceOp) (q l : Half) :
    (s.takeAnnouncement i st o q l).nq.WellFormed := by
  simp only [State.takeAnnouncement]
  repeat' split
  all_goals simp [h, Nq.post_wellFormed]

@[simp] theorem State.abandonStart_notices {s : State} (h : s.nq.WellFormed) :
    (s.abandonStart).nq.WellFormed := by
  simp only [State.abandonStart]
  all_goals simp [h, Nq.post_wellFormed]

@[simp] theorem State.arriveStopped_notices {s : State} (h : s.nq.WellFormed) :
    (s.arriveStopped).nq.WellFormed := by
  simp only [State.arriveStopped]
  all_goals simp [h, Nq.post_wellFormed]

@[simp] theorem State.beginStop_notices {s : State} (h : s.nq.WellFormed) :
    (s.beginStop).nq.WellFormed := by
  simp only [State.beginStop]
  all_goals simp [h, Nq.post_wellFormed]

@[simp] theorem State.takeRunCleared_notices {s : State} (h : s.nq.WellFormed) :
    (s.takeRunCleared).nq.WellFormed := by
  simp only [State.takeRunCleared]
  repeat' split
  all_goals simp [h, Nq.post_wellFormed]

@[simp] theorem State.takeRunSet_notices {s : State} (h : s.nq.WellFormed) :
    (s.takeRunSet).nq.WellFormed := by
  simp only [State.takeRunSet]
  repeat' split
  all_goals simp [h, Nq.post_wellFormed]

@[simp] theorem State.stationOutcome_notices {s : State} (h : s.nq.WellFormed) (r : SteerRequest) (v : Verdict) :
    (s.stationOutcome r v).nq.WellFormed := by
  simp only [State.stationOutcome]
  repeat' split
  all_goals simp [h, Nq.post_wellFormed]

@[simp] theorem State.clearAllOutcome_notices {s : State} (h : s.nq.WellFormed) :
    (s.clearAllOutcome).nq.WellFormed := by
  simp only [State.clearAllOutcome]
  repeat' split
  all_goals simp [h, Nq.post_wellFormed]

@[simp] theorem State.takeAnswer_notices {s : State} (h : s.nq.WellFormed) (q : Byte) (v : Verdict) :
    (s.takeAnswer q v).nq.WellFormed := by
  simp only [State.takeAnswer]
  repeat' split
  all_goals simp [h, Nq.post_wellFormed]

@[simp] theorem State.exhaustRetries_notices {s : State} (h : s.nq.WellFormed) (f : InFlight) :
    (s.exhaustRetries f).nq.WellFormed := by
  simp only [State.exhaustRetries]
  repeat' split
  all_goals simp [h, Nq.post_wellFormed]

@[simp] theorem State.takeTimeout_notices {s : State} (h : s.nq.WellFormed) (f : InFlight) :
    (s.takeTimeout f).nq.WellFormed := by
  simp only [State.takeTimeout]
  repeat' split
  all_goals simp [h, Nq.post_wellFormed]

@[simp] theorem State.dropAnswer_notices {s : State} (h : s.nq.WellFormed) (a : DroppedAnswer) (w : DropCause) :
    (s.dropAnswer a w).nq.WellFormed := by
  simp only [State.dropAnswer]
  all_goals simp [h, Nq.post_wellFormed]

@[simp] theorem State.answer_notices {s : State} (h : s.nq.WellFormed) (j : AnswerJob) :
    (s.answer j).nq.WellFormed := by
  simp only [State.answer]
  repeat' split
  all_goals first
    | (next hc => obtain ⟨b, -, -, rfl⟩ := State.claimAnswer_ok hc; simp [h])
    | simp [h, Nq.post_wellFormed]

@[simp] theorem State.acknowledge_notices {s : State} (h : s.nq.WellFormed) (j : AckJob) :
    (s.acknowledge j).nq.WellFormed := by
  simp only [State.acknowledge]
  repeat' split
  all_goals first
    | (next hc => obtain ⟨b, -, -, rfl⟩ := State.claimAnswer_ok hc; simp [h])
    | simp [h, Nq.post_wellFormed]

@[simp] theorem State.testAnnouncement_notices {s : State} (h : s.nq.WellFormed) (j : Fin 4) (f : Frame) :
    (s.testAnnouncement j f).nq.WellFormed := by
  simp only [State.testAnnouncement]
  repeat' split
  all_goals simp [h, Nq.post_wellFormed]

@[simp] theorem State.makeTest_notices {s : State} (h : s.nq.WellFormed) (j : Fin 4) (f : Frame) (c : Classification) :
    (s.makeTest j f c).nq.WellFormed := by
  simp only [State.makeTest]
  repeat' split
  all_goals simp [h, Nq.post_wellFormed]

@[simp] theorem State.classifyOnce_notices {s : State} (h : s.nq.WellFormed) :
    (s.classifyOnce).nq.WellFormed := by
  simp only [State.classifyOnce]
  repeat' split
  all_goals simp [h, Nq.post_wellFormed]

@[simp] theorem State.classify_notices {s : State} (h : s.nq.WellFormed) (n : Nat) :
    (State.classify n s).nq.WellFormed := by
  induction n generalizing s with
  | zero => exact h
  | succ n ih =>
    simp only [State.classify]
    split
    · exact State.classifyOnce_notices h
    · exact ih (State.classifyOnce_notices h)

@[simp] theorem State.expireLease_notices {s : State} (h : s.nq.WellFormed) (i : Slot) :
    (s.expireLease i).nq.WellFormed := by
  simp only [State.expireLease]
  repeat' split
  all_goals simp [h, Nq.post_wellFormed]

@[simp] theorem State.takeInterval_notices {s : State} (h : s.nq.WellFormed) (i : Slot) (a : Address) :
    (s.takeInterval i a).nq.WellFormed := by
  simp only [State.takeInterval]
  repeat' split
  all_goals simp [h, Nq.post_wellFormed]

@[simp] theorem State.expireInterval_notices {s : State} (h : s.nq.WellFormed) (i : Slot) :
    (s.expireInterval i).nq.WellFormed := by
  simp only [State.expireInterval]
  repeat' split
  all_goals simp [h, Nq.post_wellFormed]

@[simp] theorem State.clearSticky_notices {s : State} (h : s.nq.WellFormed) (f : StickyFlag) :
    (s.clearSticky f).nq.WellFormed := by
  simp only [State.clearSticky]
  repeat' split
  all_goals simp [h, Nq.overrun_wellFormed h]

@[simp] theorem State.takeClear_notices {s : State} (h : s.nq.WellFormed) (f : StickyFlag) :
    (s.takeClear f).nq.WellFormed := by
  simp only [State.takeClear]
  all_goals simp [h, Nq.post_wellFormed]

end Sys2Proof.Machine
end

