-- ==== Sys2Proof/Laws/Port.lean ====
section
/-! SUPPORT. What the operations of the SPI port do: a transaction's begin and end, its write event, and the row of an event. -/

namespace Sys2Proof.Machine

/-! ### The end of a transaction -/

theorem State.raiseNcs_none {s : State} (h : s.mport.spi = none) (more : List Byte) : s.raiseNcs more = s := by
  simp [State.raiseNcs, h]

theorem State.raiseNcs_write {s : State} {addr : Half} {data : List Byte} (h : s.mport.spi = some (.write addr data))
    (more : List Byte) :
    s.raiseNcs more = { s with mport := { s.mport with spi := none } }.writeEvent addr (data ++ more) := by
  simp [State.raiseNcs, h]

theorem State.raiseNcs_read {s : State} (h : s.mport.spi = some .read) (more : List Byte) :
    s.raiseNcs more = { s with mport := { s.mport with spi := none } } := by simp [State.raiseNcs, h]

/-- What a write event and the end of a transaction keep, the end of either kind keeps. -/
theorem State.raiseNcs_keeps {P : State → Prop} (hspi : ∀ u x, P u → P { u with mport := { u.mport with spi := x } })
    (hw : ∀ u addr data, P u → P (u.writeEvent addr data)) {s : State} (h : P s) (more : List Byte) :
    P (s.raiseNcs more) := by
  unfold State.raiseNcs
  split
  · exact hw _ _ _ (hspi _ _ h)
  · exact hspi _ _ h
  · exact h

/-! ### The begin of a transaction -/

theorem State.beginTransaction_of_idle {s : State} (h : s.PortIdle) : s.beginTransaction = s := by
  simp [State.beginTransaction, State.raiseNcs_none h.1, h.2]

theorem State.beginTransaction_of_softReset {s : State} (h : s.mport.spi = none) (hi : PortEvent.softReset ∈ s.mport.issued) :
    s.beginTransaction = s.softReset := by simp [State.beginTransaction, State.raiseNcs_none h, hi]

theorem State.beginTransaction_keeps {P : State → Prop} (hspi : ∀ u x, P u → P { u with mport := { u.mport with spi := x } })
    (hw : ∀ u addr data, P u → P (u.writeEvent addr data)) (hr : ∀ u, P u → P u.softReset) {s : State} (h : P s) :
    P s.beginTransaction := by
  have h' := State.raiseNcs_keeps hspi hw h []
  simp only [State.beginTransaction]
  split
  · exact hr _ h'
  · exact h'

theorem State.unlessIssued_of {s : State} {issued : Bool} (h : s.PortIdle ∨ issued = true) : s.unlessIssued issued = s := by
  rcases h with h | h
  · simp [State.unlessIssued, State.beginTransaction_of_idle h]
  · simp [State.unlessIssued, h]

theorem State.unlessIssued_keeps {P : State → Prop} (hspi : ∀ u x, P u → P { u with mport := { u.mport with spi := x } })
    (hw : ∀ u addr data, P u → P (u.writeEvent addr data)) (hr : ∀ u, P u → P u.softReset) {s : State} (h : P s)
    (issued : Bool) : P (s.unlessIssued issued) := by
  cases issued
  · exact State.beginTransaction_keeps hspi hw hr h
  · exact h

/-! ### The write event changes MPORT alone -/

@[simp] theorem State.writeEvent_frame (s : State) (addr : Half) (data : List Byte) :
    (s.writeEvent addr data).stab = s.stab ∧ (s.writeEvent addr data).presented = s.presented ∧
    (s.writeEvent addr data).idmap = s.idmap ∧ (s.writeEvent addr data).rstore = s.rstore ∧
    (s.writeEvent addr data).icls = s.icls ∧ (s.writeEvent addr data).resp = s.resp ∧
    (s.writeEvent addr data).wake = s.wake ∧ (s.writeEvent addr data).hold = s.hold ∧
    (s.writeEvent addr data).emit = s.emit ∧ (s.writeEvent addr data).steer = s.steer ∧
    (s.writeEvent addr data).cmde = s.cmde ∧ (s.writeEvent addr data).nq = s.nq ∧
    (s.writeEvent addr data).nint = s.nint ∧ (s.writeEvent addr data).intakeReady = s.intakeReady ∧
    (s.writeEvent addr data).out = s.out ∧ (s.writeEvent addr data).pending = s.pending := by
  simp only [State.writeEvent]
  repeat' split
  all_goals simp

/-! ### No transaction is in progress once NCS is high -/

theorem whenWritten_spi (b : Option Byte) (s : State) {f : State → Byte → State}
    (hf : ∀ u x, (f u x).mport.spi = u.mport.spi) : (whenWritten b s f).mport.spi = s.mport.spi := by
  cases b <;> simp [whenWritten, hf]

@[simp] theorem State.writeTiming_spi (s : State) (f : TimingField) (b : Byte) : (s.writeTiming f b).mport.spi = s.mport.spi := by
  simp only [State.writeTiming]; split <;> rfl

@[simp] theorem State.writeNotice_spi (s : State) (f : NoticeField) (b : Byte) : (s.writeNotice f b).mport.spi = s.mport.spi := by
  simp only [State.writeNotice]; split <;> rfl

@[simp] theorem State.writeRecognition_spi (s : State) (w : Nat → Option Byte) :
    (s.writeRecognition w).mport.spi = s.mport.spi := by
  simp only [State.writeRecognition, State.takeRecognition]
  (repeat' split) <;> rfl

@[simp] theorem State.writeFields_spi (s : State) (w : Nat → Option Byte) : (s.writeFields w).mport.spi = s.mport.spi := by
  simp only [State.writeFields, List.foldl]
  iterate 3 rw [whenWritten_spi _ _ fun u x => State.writeNotice_spi u _ x]
  iterate 4 rw [whenWritten_spi _ _ fun u x => State.writeTiming_spi u _ x]
  exact State.writeRecognition_spi s w

@[simp] theorem State.writeEvent_spi (s : State) (addr : Half) (data : List Byte) :
    (s.writeEvent addr data).mport.spi = s.mport.spi := by
  simp only [State.writeEvent]
  split
  · simp only [State.writeRegisters, State.writeFields_spi]
    exact whenWritten_spi _ _ (f := State.storeControl) fun _ _ => rfl
  · split <;> rfl

@[simp] theorem State.raiseNcs_spi (s : State) (more : List Byte) : (s.raiseNcs more).mport.spi = none := by
  unfold State.raiseNcs
  split
  · rw [State.writeEvent_spi]
  · rfl
  · assumption

/-- What begins a transaction leaves the port idle: NCS has risen, and a soft reset issued is taken. -/
theorem State.beginTransaction_idle (s : State) : s.beginTransaction.PortIdle := by
  simp only [State.beginTransaction, State.PortIdle]
  split
  · exact ⟨rfl, by simp [State.softReset, Mport.softReset, Mport.reset]⟩
  · next h => exact ⟨s.raiseNcs_spi [], h⟩

/-! ### The pins are driven after every command, so no operation of the port sees how they stood -/

theorem settle_withPinsOf (s u : State) : settle (s.withPinsOf u) = settle s := rfl

theorem State.drivePins_eq (s : State) : ∃ u, s.drivePins = s.withPinsOf u := ⟨s.drivePins, rfl⟩

theorem State.takeRecognition_pins (s u : State) (w : Nat → Option Byte) :
    (s.withPinsOf u).takeRecognition w = (s.takeRecognition w).withPinsOf u := by
  simp only [State.takeRecognition]
  split
  · simp only [show ∀ a, (s.withPinsOf u).refusesPartAddress a = s.refusesPartAddress a from fun _ => rfl,
      show (s.withPinsOf u).mport = s.mport from rfl]
    split <;> rfl
  · rfl

theorem State.writeRecognition_pins (s u : State) (w : Nat → Option Byte) :
    (s.withPinsOf u).writeRecognition w = (s.writeRecognition w).withPinsOf u := by
  simp only [State.writeRecognition, State.takeRecognition_pins, show (s.withPinsOf u).steer = s.steer from rfl]
  split
  · split <;> rfl
  · rfl

theorem State.writeTiming_pins (s u : State) (f : TimingField) (b : Byte) :
    (s.withPinsOf u).writeTiming f b = (s.writeTiming f b).withPinsOf u := by
  simp only [State.writeTiming]; split <;> rfl

theorem State.writeNotice_pins (s u : State) (f : NoticeField) (b : Byte) :
    (s.withPinsOf u).writeNotice f b = (s.writeNotice f b).withPinsOf u := by
  simp only [State.writeNotice]; split <;> rfl

theorem whenWritten_pins (b : Option Byte) (s u : State) {f : State → Byte → State}
    (hf : ∀ v x, f (v.withPinsOf u) x = (f v x).withPinsOf u) :
    whenWritten b (s.withPinsOf u) f = (whenWritten b s f).withPinsOf u := by
  cases b <;> simp [whenWritten, hf]

theorem State.writeFields_pins (s u : State) (w : Nat → Option Byte) :
    (s.withPinsOf u).writeFields w = (s.writeFields w).withPinsOf u := by
  simp only [State.writeFields, List.foldl, State.writeRecognition_pins,
    whenWritten_pins _ _ u (f := fun v b => v.writeTiming _ b) fun v b => v.writeTiming_pins u _ b,
    whenWritten_pins _ _ u (f := fun v b => v.writeNotice _ b) fun v b => v.writeNotice_pins u _ b]

theorem State.writeRegisters_pins (s u : State) (w : Nat → Option Byte) :
    (s.withPinsOf u).writeRegisters w = (s.writeRegisters w).withPinsOf u := by
  simp only [State.writeRegisters, whenWritten_pins _ _ u (f := State.storeControl) fun _ _ => rfl, State.writeFields_pins]
  rfl

theorem State.writeEvent_pins (s u : State) (addr : Half) (data : List Byte) :
    (s.withPinsOf u).writeEvent addr data = (s.writeEvent addr data).withPinsOf u := by
  simp only [State.writeEvent, State.writeRegisters_pins]
  split
  · rfl
  · split <;> rfl

theorem State.raiseNcs_pins (s u : State) (more : List Byte) :
    (s.withPinsOf u).raiseNcs more = (s.raiseNcs more).withPinsOf u := by
  simp only [State.raiseNcs, show (s.withPinsOf u).mport = s.mport from rfl]
  split
  · exact State.writeEvent_pins { s with mport := { s.mport with spi := none } } u _ _
  · rfl
  · rfl

theorem State.softReset_pins (s u : State) : (s.withPinsOf u).softReset = s.softReset := by
  have : (s.withPinsOf u).resetOutputs = s.resetOutputs := by
    simp only [State.resetOutputs, State.abortTransfer, show (s.withPinsOf u).emit = s.emit from rfl]
    split <;> rfl
  simp only [State.softReset, this]
  rfl

theorem State.beginTransaction_pins (s u : State) : ∃ v, (s.withPinsOf u).beginTransaction = s.beginTransaction.withPinsOf v := by
  simp only [State.beginTransaction, State.raiseNcs_pins, State.softReset_pins,
    show ((s.raiseNcs []).withPinsOf u).mport = (s.raiseNcs []).mport from rfl]
  split
  · exact ⟨(s.raiseNcs []).softReset, rfl⟩
  · exact ⟨u, rfl⟩

/-! ### The row SOFT_RESET -/

theorem execSoftReset_of {s : State} (h : s.mport.spi = none ∨ PortEvent.softReset ∈ s.mport.issued) :
    execSoftReset s = settle s.softReset := by
  by_cases hi : PortEvent.softReset ∈ s.mport.issued
  · simp [execSoftReset, State.unlessIssued, hi]
  · simp [execSoftReset, State.unlessIssued, hi, State.beginTransaction_of_idle ⟨h.resolve_right hi, hi⟩]

end Sys2Proof.Machine
end

