-- ==== Sys2Proof/Laws/Stations.lean ====
section
/-! SUPPORT. What the shared operations on records answer, each said once: changing a station, beginning and confirming a waking, an attempt, a placement, a cancel, an acknowledgement, the vacancy clean-up, the claim of a buffer; and how a completed or refused command reads. -/

namespace Sys2Proof.Machine

/-! ### Tables -/

theorem tset_tset {α : Type} {n : Nat} (v : Vector α n) (i : Fin n) (x y : α) : tset (tset v i x) i y = tset v i y := by
  simp [tset]

theorem tset_get_id {α : Type} {n : Nat} (v : Vector α n) (i : Fin n) : tset v i v[i.val] = v := by
  simp [tset]

theorem lowest_eq_some {α : Type} {n : Nat} {p : α → Bool} {v : Vector α n} {i : Fin n} (h : p v[i.val] = true)
    (hl : ∀ j : Fin n, j < i → p v[j.val] = false) : lowest p v = some i := by
  cases hh : lowest p v with
  | none => rw [lowest_none] at hh; rw [hh i] at h; cases h
  | some k =>
    obtain ⟨a, b⟩ := lowest_some hh
    rcases lt_trichotomy i k with h1 | h1 | h1
    · rw [b i h1] at h; cases h
    · rw [h1]
    · rw [hl k h1] at a; cases a

/-! ### Finding a station -/

theorem State.findAddress_eq_some {s : State} {a : Address} (h : s.AddressesUnique) {i : Slot} {st : Station}
    (hs : s.station i = some st) (ha : st.address = a) : s.findAddress a = some (i, st) := by
  cases hh : s.findAddress a with
  | none => exact absurd ha (State.findAddress_none hh i st hs)
  | some x =>
    obtain ⟨j, st'⟩ := x
    have hf := State.findAddress_some hh
    have e : j = i := h.1 j i st' st hf.1 hs (by rw [hf.2, ha])
    subst e
    have hs' := hf.1
    rw [hs] at hs'
    cases hs'
    rfl

theorem State.findAddress_eq_none {s : State} {a : Address} (h : ∀ i st, s.station i = some st → st.address ≠ a) :
    s.findAddress a = none := by
  cases hh : s.findAddress a with
  | none => rfl
  | some x => exact absurd (State.findAddress_some hh).2 (h _ _ (State.findAddress_some hh).1)

theorem State.matched_eq_some {s : State} {i : Slot} {st : Station} {a : Address} (h : s.station i = some st)
    (ha : st.address = a) : s.matched i a = some st := by
  unfold State.matched
  rw [h]
  simp [ha]

theorem State.matched_eq_none {s : State} {i : Slot} {a : Address} (h : ∀ st, s.station i = some st → st.address ≠ a) :
    s.matched i a = none := by
  unfold State.matched
  cases hs : s.station i with
  | none => rfl
  | some st => simp [h st hs]

/-! ### Changing a station -/

theorem State.setStation_setStation (s : State) (i : Slot) (a b : Station) :
    (s.setStation i a).setStation i b = s.setStation i b := by
  simp [State.setStation, State.setRecord, State.generation, tset]

theorem State.setStation_self {s : State} {i : Slot} {st : Station} (h : s.station i = some st) : s.setStation i st = s := by
  have h1 : ({ generation := s.generation i, station := some st } : Record) = s.stab[i.val] := by
    unfold State.generation
    unfold State.station at h
    rw [← h]
  simp only [State.setStation, State.setRecord, h1, tset_get_id]

theorem State.updateStation_eq {s : State} {i : Slot} {st : Station} (f : Station → Station)
    (h : s.station i = some st) : s.updateStation i f = s.setStation i (f st) := by
  unfold State.updateStation
  rw [h]

theorem State.setStationState_eq {s : State} {i : Slot} {st : Station} {q : StationState}
    (h : s.station i = some st) : s.setStationState i q = s.setStation i { st with state := q } :=
  State.updateStation_eq _ h

/-- A state whose table is that of `s` with one station set. -/
theorem State.onlyStation_of_setStation {s t : State} {i : Slot} {st : Station} (h : t.stab = (s.setStation i st).stab) :
    s.OnlyStation t i (some st) := by
  refine ⟨fun j => ?_, fun j => ?_⟩
  · rw [State.station_of_stab h, State.setStation_station]
    simp only [eq_comm (a := i)]
  · rw [State.generation_of_stab h]
    simp only [State.generation, State.setStation, State.setRecord, tset_get]
    split
    · next h => subst h; rfl
    · rfl

/-! ### Acknowledgements, placements, cancels -/

theorem State.decideAck_eq {s : State} {i : Slot} {st : Station} {code : AckCode} {granted sequence : Half}
    (h : s.station i = some st) : s.decideAck i code granted sequence =
      { s.setStation i { st with lastAck := some (code, granted) } with
        resp := { s.resp with ackJobs := s.resp.ackJobs ++ [ackJobFor i st code sequence granted] } } := by
  unfold State.decideAck
  rw [h]
  rfl

theorem State.place_eq (s : State) (k : SteerKind) (i : Slot) (st : Station) :
    s.place k i st = { s with steer := s.steer.withRequest k i st } := by
  unfold State.place Steer.place Steer.withRequest
  split <;> rfl

theorem Steer.cancelDivert_unsent {t : Steer} {i : Slot} {r : SteerRequest} {pre post : List SteerRequest}
    (hq : t.queue = pre ++ r :: post) (h1 : r.kind = .divert) (h2 : r.slot = i)
    (h3 : ∀ q ∈ pre, ¬ (q.kind = .divert ∧ q.slot = i)) :
    t.cancelDivert i = ({ t with queue := pre ++ post }, .cancelled) := by
  unfold Steer.cancelDivert
  have e : t.queue.any (fun r => r.isFor .divert i) = true := by rw [hq]; simp [SteerRequest.isFor, h1, h2]
  rw [if_pos e, hq, List.eraseP_append_right]
  · simp [SteerRequest.isFor, h1, h2]
  · intro q hh
    have := h3 q hh
    simp only [SteerRequest.isFor]
    simpa using this

theorem Steer.cancelDivert_sent {t : Steer} {i : Slot} (h : ∀ q ∈ t.queue, ¬ (q.kind = .divert ∧ q.slot = i))
    (hs : t.sent i = some .divert) : t.cancelDivert i = (t, .inFlight) := by
  unfold Steer.cancelDivert
  have e : t.queue.any (fun r => r.isFor .divert i) = false := by
    simp only [List.any_eq_false, SteerRequest.isFor, Bool.and_eq_true, decide_eq_true_eq]
    exact h
  have e2 : t.inFlightFor .divert i = true := by
    unfold Steer.sent Steer.sentRequest at hs
    unfold Steer.inFlightFor
    cases hf : t.inFlight with
    | none => simp [hf] at hs
    | some f =>
      cases hb : f.body with
      | clearAll => simp [hf, hb] at hs
      | station r =>
        simp [hf, hb, Option.filter] at hs
        simp [SteerRequest.isFor, hb, hs]
  simp [e, e2]

/-! ### Wakings -/

theorem Emit.withdraw_eq (e : Emit) (i : Slot) (a : Address) :
    e.withdraw i a = { e with waiting := e.waiting.filter fun x => decide (x.kind ≠ .wake i a) } := by
  unfold Emit.withdraw Entry.isWakeOf
  simp

/-- R113: one attempt, appended or skipped. -/
theorem State.attempt_eq {s : State} {i : Slot} {st : Station} {a : Address} (h : s.station i = some st) :
    s.attempt i st a =
      { s.setStation i { st with
          wakeAttempts := if s.emit.size < Config.emissionCapacity then st.wakeAttempts + 1 else st.wakeAttempts } with
        emit := s.emit.joined { kind := .wake i a, port := st.port, segment := st.segment } } := by
  unfold State.attempt Emit.append Emit.joined
  by_cases hz : s.emit.size < Config.emissionCapacity
  · simp only [hz, if_true]
    rw [State.updateStation_eq (st := st) _ (by exact h)]
    rfl
  · simp only [hz, if_false]
    rw [State.setStation_self h]

/-- R37, R112: the waking of an ASLEEP record begins. -/
theorem State.wakeUp_eq (s : State) (i : Slot) (st : Station) (cause : WakeCause) :
    s.wakeUp i st cause =
      { s.setStation i { st with
          state := .waking cause none
          wakeAttempts := if s.emit.size < Config.emissionCapacity then 1 else 0
          wakesBegun := saturate16 st.wakesBegun } with
        wake := tset s.wake i (some { address := st.address, remaining := s.mport.settings.wakeInterval.toNat })
        emit := s.emit.joined { kind := .wake i st.address, port := st.port, segment := st.segment }
        nq := s.nq.post (s.wakeBegunPost i cause) } := by
  unfold State.wakeUp State.beginWaking State.attempt Emit.append Emit.joined
  simp only [State.postFor_emit, State.setStation_emit]
  by_cases hsz : s.emit.size < Config.emissionCapacity
  · simp only [hsz, if_true]
    rw [State.updateStation_eq (st := { st with
      state := .waking cause none, wakeAttempts := 0, wakesBegun := saturate16 st.wakesBegun })]
    · simp [State.startInterval, State.postFor, State.setStation, State.setRecord, State.generation, State.wakeBegunPost, tset]
    · simp [State.station, State.postFor, State.setStation, State.setRecord]
  · simp only [hsz, if_false]
    simp [State.startInterval, State.postFor, State.setStation, State.setRecord, State.generation, State.wakeBegunPost]

theorem State.beginsWaking_wakeUp {s t : State} {i : Slot} {st : Station} {cause : WakeCause}
    (h : t.stab = (s.wakeUp i st cause).stab) (h2 : t.wake = (s.wakeUp i st cause).wake)
    (h3 : t.emit = (s.wakeUp i st cause).emit) : s.BeginsWaking t i st cause none := by
  rw [State.wakeUp_eq] at h h2 h3
  exact ⟨State.onlyStation_of_setStation h, h2, h3⟩

/-- R26: the confirmation of a WAKING record, by the held frame. -/
theorem State.confirmWaking_eq {s : State} {i : Slot} {st : Station} {cause : WakeCause} {held : Option (Fin 16)}
    (hst : s.station i = some st) :
    s.confirmWaking i st cause held =
      match held with
      | none =>
        { s.setStation i { st with state := .leaving .confirmed (some cause) } with
          wake := tset s.wake i none, emit := s.emit.withdraw i st.address, steer := s.steer.withRequest .restore i st }
      | some b =>
        if (s.emit.withdraw i st.address).size < Config.emissionCapacity then
          { s.setStation i { st with state := .leaving .confirmed (some cause) } with
            wake := tset s.wake i none
            steer := s.steer.withRequest .restore i st
            emit := { s.emit.withdraw i st.address with
              waiting := (s.emit.withdraw i st.address).waiting ++ [{ kind := .held b, port := st.port, segment := st.segment }] }
            hold := match s.hold[b.val] with
              | .reserved bytes => tset s.hold b (.queued bytes)
              | .free | .queued _ => s.hold }
        else
          { s.setStation i { st with state := .leaving .confirmed (some cause), framesShed := saturate16 st.framesShed } with
            wake := tset s.wake i none
            steer := s.steer.withRequest .restore i st
            emit := s.emit.withdraw i st.address
            hold := tset s.hold b .free } := by
  unfold State.confirmWaking State.releaseHeld
  cases held with
  | none =>
    simp only []
    rw [State.setStationState_eq (st := st) (by exact hst), State.place_eq]
    rfl
  | some b =>
    simp only []
    have he : (((s.cancelWaking i).withdrawWakes i st.address).emit) = s.emit.withdraw i st.address := rfl
    by_cases hr : (s.emit.withdraw i st.address).size < Config.emissionCapacity
    · simp only [he, Emit.append, hr, if_true]
      rw [State.setStationState_eq (st := st) (by exact hst), State.place_eq]
      rfl
    · simp only [he, Emit.append, hr, if_false]
      have h1 : (((s.cancelWaking i).withdrawWakes i st.address).freeHeld b).raiseShed i =
          (((s.cancelWaking i).withdrawWakes i st.address).freeHeld b).setStation i
            { st with framesShed := saturate16 st.framesShed } := State.updateStation_eq _ (by exact hst)
      rw [h1, State.setStationState_eq (State.setStation_station_self _ _ _), State.setStation_setStation, State.place_eq]
      rfl

/-! ### Vacancy -/

theorem State.vacate_slots {s t : State} {i : Slot} {st : Station} (h : t.stab = (s.vacate i st).stab) :
    (∀ j, t.station j = if j = i then none else s.station j) ∧
      ∀ j, t.generation j = if j = i then s.generation i + 1#8 else s.generation j := by
  refine ⟨fun j => ?_, fun j => ?_⟩
  · rw [State.station_of_stab h, State.vacate_station]
    simp only [eq_comm (a := i)]
  · rw [State.generation_of_stab h, State.vacate_generation]
    simp only [eq_comm (a := i)]
    split
    · next h => rw [h]
    · rfl

theorem lowerCounts_get (rules : List RuleNumber) (v : Vector Rule 96) (hn : rules.Nodup) (n : RuleNumber) :
    (lowerCounts v rules)[n.val] =
      { v[n.val] with refCount := if n ∈ rules then v[n.val].refCount - 1 else v[n.val].refCount } := by
  induction rules generalizing v with
  | nil => simp [lowerCounts]
  | cons m r ih =>
    have h1 := List.nodup_cons.mp hn
    simp only [lowerCounts, ih _ h1.2, updateCount, tset_get]
    by_cases h : m = n
    · subst h; simp [h1.1]
    · simp [h, Ne.symm h]

/-! ### Buffers and places -/

theorem State.claimAnswer_eq_ok {s : State} {l : List Byte} {p : Port} {g : Segment} {b : Fin 8}
    (h : s.resp.buffers[b.val] = none) (hlow : ∀ k < b, s.resp.buffers[k.val] ≠ none)
    (hz : s.emit.size < Config.emissionCapacity) :
    s.claimAnswer l p g = .ok { s with
      emit := { s.emit with waiting := s.emit.waiting ++ [{ kind := .answer b, port := p, segment := g }] }
      resp := { s.resp with buffers := tset s.resp.buffers b (some l) } } := by
  unfold State.claimAnswer
  have hlo : lowest (fun b => b.isNone) s.resp.buffers = some b :=
    lowest_eq_some (by rw [h]; rfl) (fun k hk => by simpa [Option.isSome_iff_ne_none] using hlow k hk)
  simp only [hlo, Emit.append, hz, if_true]

theorem State.claimAnswer_noBuffer {s : State} {l : List Byte} {p : Port} {g : Segment}
    (h : ∀ b : Fin 8, s.resp.buffers[b.val] ≠ none) : s.claimAnswer l p g = .error .noBuffer := by
  unfold State.claimAnswer
  have hlo : lowest (fun b => b.isNone) s.resp.buffers = none := by
    rw [lowest_none]
    intro k
    simpa [Option.isSome_iff_ne_none] using h k
  simp only [hlo]

theorem State.claimAnswer_noPlace {s : State} {l : List Byte} {p : Port} {g : Segment} {b : Fin 8}
    (h : s.resp.buffers[b.val] = none) (hz : ¬ s.emit.size < Config.emissionCapacity) :
    s.claimAnswer l p g = .error .noPlace := by
  unfold State.claimAnswer
  cases hlo : lowest (fun b => b.isNone) s.resp.buffers with
  | none => rw [lowest_none] at hlo; have := hlo b; rw [h] at this; cases this
  | some k => simp only [Emit.append, hz, if_false]

/-! ### Events presented for a slot -/

theorem State.nextPresented_eq {s : State} {i : Slot} {a : Address} {k : PresentedKind} {before after : List Presented}
    (h : s.PresentsFor i a k before after) : s.nextPresented i = some { slot := i, address := a, kind := k } := by
  unfold State.nextPresented
  rw [h.1, List.find?_append, List.find?_eq_none.mpr]
  · simp
  · intro q hq
    simpa using h.2 q hq

theorem State.popPresented_eq {s : State} {i : Slot} {a : Address} {k : PresentedKind} {before after : List Presented}
    (h : s.PresentsFor i a k before after) : s.popPresented i = { s with presented := before ++ after } := by
  unfold State.popPresented
  rw [h.1, List.eraseP_append_right]
  · simp
  · intro q hq
    simpa using h.2 q hq

theorem sequenceClass_new {last : Option Half} {q : Half} (h : NewSequence last q) : sequenceClass last q = .new := by
  unfold sequenceClass
  cases last with
  | none => rfl
  | some l =>
    have := h l rfl
    simp only []
    rw [if_neg (by omega), if_pos this.2]

/-! ### Commands -/

/-- A row carried to its completion on its command just latched. -/
theorem State.Latched.runRow {accepts : Byte → Bool} {checks : Checks} {event : Event} {s : State} {code : Byte}
    {c : Memory} (h : s.Latched code c) (ha : accepts code = true) :
    runRow accepts checks event .completion s = .next (State.drivePins (match checks s c with
      | some code => s.complete c (reply code)
      | none => (event s c).1.complete c (event s c).2)) :=
  runRow_latched h.1 (by rw [h.2]; exact ha)

theorem State.refuses_complete (s : State) (c : Memory) (k : ResultCode) :
    s.Refuses (s.complete c (reply k)).drivePins c k := ⟨rfl, rfl⟩

theorem withRule_eq {n : Nat} {s : State} {f : RuleNumber → State × Reply} {k : RuleNumber} (h : k.val = n) :
    withRule n s f = f k := by
  subst h
  simp [withRule]

/-- One test of the frame under classification (R79). -/
theorem State.Classifying.once {s : State} {j : Fin 4} {f : Frame} {next : NextTest} {sighted : Option Slot}
    (h : s.Classifying j f next sighted) :
    exec (.frameClassification (.tests 1)) s = .next (s.makeTest j f { next := next, sighted := sighted }).drivePins := by
  obtain ⟨⟨rest, h1⟩, h2, h3⟩ := h
  have e : s.classifyOnce = s.makeTest j f { next := next, sighted := sighted } := by
    unfold State.classifyOnce
    rw [h1]
    simp only [h2, h3]
  show settle (State.classify 1 s) = _
  unfold State.classify
  simp only [e]
  split
  · rfl
  · unfold State.classify; rfl

end Sys2Proof.Machine
end

