-- ==== Sys2Proof/WellFormed.lean ====
section
/-! DEFINITION. Which commands are well formed: operands that the wire can carry for that row. exec is total on all commands; a command that is not well formed is one no agent sends. -/

namespace Sys2Proof

/-- A row named ACK carries a valid ACK message (R145). -/
def isAckRun (run : List Byte) : Bool :=
  match decodeAnswer run with
  | some (.ack _) => true
  | _ => false

/-- A row named NAK carries a valid NAK message (R145). -/
def isNakRun (run : List Byte) : Bool :=
  match decodeAnswer run with
  | some (.nak _ _) => true
  | _ => false

/-- The check of a command's operands. -/
def Instr.wellFormed : Instr → Bool
  | .recognitionValueWrite first bytes => decide (first + bytes.length ≤ 10) && decide (0 < bytes.length)
  | .take (.start first) => decide (first < 16)
  | .take (.whole first) => decide (first < 16)
  | .ack run => isAckRun run
  | .nak run => isNakRun run
  | .steerMessageDiscarded run => (decodeAnswer run).isNone
  | .hardReset | .softReset | .registerWrite _ _ | .take .finish | .runSet | .runCleared | .go | .intEnableWrite _ | .cmdOverrunClear
  | .noticeOverrunClear | .configRefusedClear | .nameWriteRefusedClear | .configurationWrite _ _
  | .noticeParameterWrite _ _ | .stationCreate _ | .stationSetTemplate _ | .stationClearTemplate _
  | .stationAddIdentifier _ | .stationRemoveIdentifier _ | .stationAttachRule _ | .stationDetachRule _
  | .stationRead _ | .stationSleep _ | .stationWake _ | .stationRetire _ | .stationClearCounters _
  | .stationFind _ | .ruleDefine _ | .ruleDelete _ | .ruleRead _ | .steerRestart _ | .unknownCommandCode _
  | .frameArrival _ | .frameClassification _ | .sighting _ | .announcement _ | .wakeTrigger _ | .shed _
  | .leaseExpiry _ _ | .intervalExpiry _ _ | .replyJob | .probeReplyJob | .sleepAckJob
  | .transmissionBegin | .transmissionCompletion | .steerSend | .ackTimeout _ | .deferredStart
  | .noticeHoldoff _ | .leaseSecondBoundary | .ageBoundary | .lineIdle => true

end Sys2Proof
end

