-- ==== Sys2Proof/Tests/Slice0.lean ====
section
/-! SUPPORT. Our own tests: ill-formed commands that the check refuses, values the manual works out, one step on small states, and for every statement a state and operands that meet its hypotheses. -/

namespace Sys2Proof.Tests

open Sys2Proof Sys2Proof.Machine

/-! ### Ill-formed commands -/

theorem test_recognition_write_past_its_ten_bytes : (Instr.recognitionValueWrite 8 [0#8, 0#8, 0#8]).wellFormed = false := by decide
theorem test_recognition_write_of_nothing : (Instr.recognitionValueWrite 0 []).wellFormed = false := by decide
theorem test_take_past_the_record : (Instr.take (.whole 16)).wellFormed = false ∧
    (Instr.take (.start 16)).wellFormed = false := by decide
theorem test_ack_that_is_no_ack : (Instr.ack []).wellFormed = false := by decide
theorem test_nak_that_is_no_nak : (Instr.nak [8#8]).wellFormed = false := by decide

/-- The 16 bytes of an ACK of sequence 1: 8 + 1 + 246 = 255. -/
def ackBytes : List Byte := [8#8, 1#8] ++ List.replicate 13 0#8 ++ [246#8]

/-- The 16 bytes of a NAK of sequence 1 with reason UNKNOWN: 9 + 1 + 2 + 243 = 255. -/
def nakBytes : List Byte := [9#8, 1#8] ++ List.replicate 9 0#8 ++ [2#8] ++ List.replicate 3 0#8 ++ [243#8]

theorem test_discarded_message_that_is_valid : (Instr.steerMessageDiscarded ackBytes).wellFormed = false := by decide
theorem test_valid_messages : decodeAnswer ackBytes = some (.ack 1#8) ∧ decodeAnswer nakBytes = some (.nak 1#8 .unknown) ∧
    (Instr.ack ackBytes).wellFormed = true ∧ (Instr.nak nakBytes).wellFormed = true := by decide
theorem test_damaged_message : decodeAnswer (ackBytes.set 15 245#8) = none ∧ decodeAnswer (ackBytes.take 15) = none := by decide

/-! ### Values the manual works out -/

set_option maxRecDepth 4000 in
theorem test_check_of_one_zero_byte : cyclicCheck [0#8] = 0x527D5351#32 := by decide
set_option maxRecDepth 20000 in
theorem test_check_of_nine_digits :
    cyclicCheck [0x31#8, 0x32#8, 0x33#8, 0x34#8, 0x35#8, 0x36#8, 0x37#8, 0x38#8, 0x39#8] = 0xE3069283#32 := by decide
theorem test_clear_all_message : requestMessage .clearAll 0#4 = 3#8 :: List.replicate 14 0#8 ++ [252#8] := by decide
theorem test_no_word_spells_a_command : decodeTableWord 8 5 = none ∧ State.withFetchWord State.reset 8 5 = State.reset :=
  ⟨rfl, rfl⟩

/-- The MOSI bits of some bytes, most significant bit first. -/
def mosi (bytes : List Byte) : List Bool := bytes.flatMap fun b => (List.range 8).map fun k => b.getLsbD (7 - k)

theorem test_spi_write : decodeSpi (mosi [1#8, 0#8, 4#8, 1#8]) = .write 4#16 [1#8] ∧
    decodeSpi (mosi [1#8, 0#8, 4#8, 1#8] ++ [true]) = .write 4#16 [1#8] ∧
    (SpiMeaning.write 4#16 [1#8]).command = some (.registerWrite (.whole 4#16) [1#8]) := by decide
theorem test_spi_take_peek_and_ignored : (decodeSpi (mosi [2#8, 3#8, 0x10#8, 0#8])).command = some (.take (.whole 0)) ∧
    decodeSpi (mosi [2#8, 3#8, 0#8, 0#8]) = .read 0x300#16 ∧ (SpiMeaning.read 0x300#16).command = none ∧
    decodeSpi (mosi [7#8, 3#8, 0x10#8]) = .ignored ∧ decodeSpi (mosi [1#8, 3#8]) = .ignored := by decide
theorem test_miso : (List.range 7).map (State.reset.miso false [2#8, 0#8, 0#8]) =
      [0#8, 0#8, 0#8, 0#8, 0x20#8, 0x64#8, 1#8].map .driven ∧ State.reset.miso false [9#8, 0#8, 0#8] 4 = .driven 0#8 ∧
    State.reset.miso false [1#8, 0#8, 4#8] 3 = .unstated ∧ State.reset.miso true [2#8, 0#8, 0#8] 4 = .highImpedance := by decide
theorem test_intake_tag : decodeIntake [3#8, 0#8, 10#8, 2#8, 0#8, 60#8, 9#8] = some (⟨3#8, 10#16, 2#8, 60#16⟩, [9#8]) := by decide
theorem test_sequence_classes : sequenceClass (some 0xFFFF#16) 0#16 = .new ∧ sequenceClass (some 5#16) 5#16 = .repeated ∧
    sequenceClass (some 5#16) 4#16 = .old ∧ sequenceClass (some 0#16) 32767#16 = .new ∧
    sequenceClass (some 0#16) 32768#16 = .old ∧ sequenceClass none 9#16 = .new := by decide

/-! ### Small states -/

/-- An address a station may have. -/
def home : Address := 0x02000000A001#48

/-- A station in a state. -/
def station (q : StationState) : Station :=
  { address := home, port := 3#5, segment := 10#12, defaultLease := 60#16,
    identifiers := [{ identifier := 0x0A000001#32, wakeOnQuery := true }], rules := [2], template := some (List.replicate 60 1#8), state := q,
    lastSequence := some 5#16, lastAck := some (.accepted, 60#16), wakeAttempts := 1, answersSent := 0#16,
    wakesBegun := 0#16, framesShed := 0xFFFF#16 }

/-- The part after reset with one station, in slot 3. -/
def one (q : StationState) : State := State.reset.setStation 3 (station q)

/-- The same part in RUNNING with the link UP. -/
def inRunning (s : State) : State := { s with steer := { s.steer with mode := .running, link := .up, footing := true } }

/-- The same part with a command record just latched. -/
def latching (s : State) (bytes : List Byte) : State :=
  { s with cmde := { s.cmde with engine := .busy (Memory.ofBytes bytes) .latched } }

/-- The same part with one event presented. -/
def presenting (s : State) (k : PresentedKind) : State :=
  { s with presented := [{ slot := 3, address := home, kind := k }] }

theorem one_station (q : StationState) : (one q).station 3 = some (station q) := State.setStation_station_self _ _ _

theorem one_only {q : StationState} {i : Slot} {st : Station} (h : (one q).station i = some st) : i = 3 ∧ st = station q := by
  unfold one at h
  rw [State.setStation_station] at h
  split at h
  · next e => exact ⟨e.symm, by cases h; rfl⟩
  · exact absurd h (by simp [State.station, State.reset])

theorem one_unique {s : State} {q : StationState} (h : s.stab = (one q).stab) (hp : s.mport.settings.partAddress ≠ home) :
    s.AddressesUnique := by
  have hs : ∀ i, s.station i = (one q).station i := fun i => by rw [State.station, h]; rfl
  refine ⟨fun i j a b ha hb _ => ?_, fun i a ha => ?_⟩
  · rw [hs] at ha hb
    rw [(one_only ha).1, (one_only hb).1]
  · rw [hs] at ha
    rw [(one_only ha).2]
    exact ⟨(by decide : isStationAddress home = true), fun e => hp e.symm⟩

/-- The next state of a command; the state itself where it answers none. -/
def after (c : Instr) (s : State) : State :=
  match exec c s with
  | .next t => t
  | _ => s

/-! ### One step -/

theorem test_start_and_its_end : (after .runSet State.reset).steer.mode = .starting ∧
    (after .runSet State.reset).out.sending = some (3#8 :: List.replicate 14 0#8 ++ [252#8]) ∧
    (after .hardReset (after .runSet State.reset)).out.steered = [(3#8 :: List.replicate 14 0#8 ++ [252#8], .cutOff)] := by decide
theorem test_write_of_control : (after (.registerWrite (.whole 4#16) [0x07#8]) State.reset).mport.issued = [.runSet, .go] ∧
    (after (.registerWrite (.whole 4#16) [0x87#8]) State.reset).mport.issued = [.softReset] := by decide
theorem test_write_past_the_block : (after (.registerWrite (.whole 0x0FF#16) [1#8, 2#8]) State.reset).mport.commandArea = [] := by decide
theorem test_write_in_parts_and_cut_off :
    (after (.registerWrite .finish [0x04#8]) (after (.registerWrite (.start 4#16) []) State.reset)).mport.intEnable = true ∧
    (after (.registerWrite .finish [0x04#8]) (after .hardReset (after (.registerWrite (.start 4#16) []) State.reset))).mport.intEnable = false := by
  decide
theorem test_soft_reset_before_the_next_transaction :
    (after (.registerWrite (.whole 0x01A#16) [9#8]) (after (.registerWrite (.whole 4#16) [0x80#8]) (after .runSet State.reset))).steer.mode = .stopped := by
  decide
theorem test_go_latches : (after .go State.reset).cmde.engine = .busy [] .latched := by decide
theorem test_unknown_code : (after (.unknownCommandCode .completion) (latching State.reset [0x7F#8, 9#8])).cmde.resultArea =
    [(0, 0x7F#8), (1, 9#8), (2, 2#8)] := by decide
theorem test_holdoff_asserts_nint :
    (after (.noticeHoldoff 2) { State.reset with
      mport := { State.reset.mport with intEnable := true, settings := { Settings.reset with noticeTrigger := 2#8, noticeHoldoff := 2#8 } }
      nq := State.reset.nq.post { kind := .stationAsleep, subject := none, detail := .none } }).nint = true := by decide
theorem test_take_of_an_empty_queue : (after (.take (.whole 0)) State.reset).out.capture = List.replicate 16 0#8 := by decide
theorem test_idle_step : step State.reset = .next State.reset := rfl
theorem test_tags_in_turn : (after (.frameClassification (.tests 1)) { State.reset with icls :=
    { slots := #v[.received ⟨⟨32#8, 0#16, 1#8, 14#16⟩, List.replicate 14 0#8, 14⟩, .free, .free, .free], arrivals := [0], current := none } }).icls =
    Icls.reset := by decide
theorem test_emission_tag : (⟨31#5, 4095#12, [7#8]⟩ : Transfer).wire = [31#8, 0x0F#8, 0xFF#8, 7#8] := by decide
theorem test_reading_ident_and_beyond : State.reset.readWindow 0#16 5 = [0x20#8, 0x64#8, 1#8, 1#8, 0#8] ∧
    State.reset.readWindow 0x3F0#16 2 = [0#8, 0#8] ∧ State.reset.readWindow 0x01A#16 4 = [10#8, 5#8, 20#8, 3#8] := by decide
set_option maxRecDepth 20000 in
theorem test_create_then_find :
    (after (.stationCreate .completion) (latching State.reset [1#8, 7#8, 2#8, 0#8, 0#8, 0#8, 0#8, 1#8, 31#8, 0x0F#8, 0xFF#8, 0#8, 60#8])).cmde.resultArea =
      [(0, 1#8), (1, 7#8), (3, 2#8)] ∧
    (after (.stationFind .completion) (latching (one .awake) [0x0D#8, 0#8, 2#8, 0#8, 0#8, 0#8, 0xA0#8, 1#8])).cmde.resultArea =
      [(0, 0x0D#8), (3, 2#8), (4, 3#8)] := by decide

/-! ### A state and operands that meet the hypotheses of each statement -/

theorem witness_StepTakesTheFrontCommand :
    ({ State.reset with pending := [.go, .lineIdle] } : State).pending = .go :: [.lineIdle] ∧ State.reset.pending = [] := ⟨rfl, rfl⟩

theorem reset_in_range : State.reset.mport.settings.InRange := by
  refine ⟨?_, ?_, ?_, ?_, ?_, ?_, ?_, ?_⟩ <;> decide

/-- The part after reset is idle at its port. -/
theorem port_idle : State.reset.PortIdle := ⟨rfl, by decide⟩

/-- Configuration in range; a soft reset issued, a write in progress and a read in progress; rows that begin a
transaction, of each kind. -/
theorem witness_ResetsResult : State.reset.mport.settings.InRange ∧ State.reset.mport.spi = none ∧
    (let s : State := { State.reset with mport := { State.reset.mport with issued := [.softReset] } }
     s.mport.spi = none ∧ PortEvent.softReset ∈ s.mport.issued ∧ s.BeginsTransaction (.take (.whole 0)) ∧
       s.BeginsTransaction .go ∧ s.BeginsTransaction .runSet ∧ s.BeginsTransaction .cmdOverrunClear ∧
       ∃ a, exec .softReset s = .next a) ∧
    (let s : State := { State.reset with mport := { State.reset.mport with spi := some (.write 4#16 [0x80#8]) } }
     s.mport.spi = some (.write 4#16 [0x80#8]) ∧ s.BeginsTransaction (.intEnableWrite true) ∧
       ∃ a, a.BeginsTransaction (.intEnableWrite true) ∧ exec (.registerWrite .finish []) s = .next a) ∧
    (let s : State := { State.reset with mport := { State.reset.mport with spi := some .read } }
     s.mport.spi = some .read ∧ s.BeginsTransaction (.registerWrite (.start 4#16) []) ∧ ∃ a, exec (.take .finish) s = .next a) := by
  have hv : ∀ s : State, s.BeginsTransaction (.intEnableWrite true) := fun _ => .inr (.inr (.inl ⟨_, rfl⟩))
  refine ⟨reset_in_range, rfl, ⟨rfl, by decide, .inr (.inl ⟨0, .inr rfl⟩), ?_, ?_, ?_, _, rfl⟩, ⟨rfl, hv _, _, hv _, rfl⟩,
    ⟨rfl, .inl ⟨4#16, [], .inl rfl⟩, _, rfl⟩⟩
  · exact .inr (.inr (.inr (.inr (.inr (.inr (.inr (.inl ⟨rfl, by decide⟩)))))))
  · exact .inr (.inr (.inr (.inr (.inr (.inr (.inl ⟨.inl rfl, rfl⟩))))))
  · exact .inr (.inr (.inr (.inr (.inr (.inr (.inr (.inr ⟨.cmdOverrun, rfl, by decide⟩)))))))

/-- The first and last address of each block and the first beyond the last; a byte read of every address; a queue with a head; a soft reset issued; a port with no write in progress. -/
theorem witness_WindowWritesAndReads : State.reset.PortIdle ∧ Memory.wf State.reset.mport.commandArea = true ∧
    (∀ a ∈ [0x100#16, 0x1FF#16], 0x100 ≤ a.toNat % 1024 ∧ a.toNat % 1024 < 0x200) ∧
    (∀ a ∈ [0x200#16, 0x2FF#16, 0x300#16, 0x30F#16, 0x310#16, 0x31F#16, 0x320#16, 0x3FF#16], 0x200 ≤ a.toNat % 1024) ∧
    (∀ addr, ∃ b, (State.reset.readWindow addr 2)[1]? = some b) ∧
    State.reset.nq.queue = [] ∧
    (let n : Notice := { kind := .modeChanged, subject := none, detail := .none, repeatCount := 1#8, stamp := 0#16, age := 0#8 }
     Nq.HeadIs { queue := [n], stamp := 1#16, overrun := false } [] n []) ∧
    (let s : State := { State.reset with mport := { State.reset.mport with issued := [.softReset] } }
     s.mport.spi = none ∧ PortEvent.softReset ∈ s.mport.issued ∧ ∃ a, exec .softReset s = .next a) ∧
    (∀ addr data, State.reset.mport.spi ≠ some (.write addr data)) ∧ ([9#8].length < 3 ∧ (9#8 : Byte) ≠ 1#8 ∧ (9#8 : Byte) ≠ 2#8) := by
  refine ⟨port_idle, by decide, by simp, by simp, fun _ => ⟨_, rfl⟩, rfl, ⟨rfl, by decide, by decide⟩, ⟨rfl, by decide, _, rfl⟩, fun _ _ h => (nomatch h), by decide⟩

theorem witness_WriteToControlAndStatus : State.reset.PortIdle ∧ (0x004#16).toNat % 1024 = 0x004 ∧ (0x009#16).toNat % 1024 = 0x009 ∧
    ∀ a ∈ [0x000#16, 0x003#16, 0x005#16, 0x008#16, 0x00A#16, 0x00F#16, 0x021#16, 0x0FF#16],
      a.toNat % 1024 < 0x004 ∨ 0x005 ≤ a.toNat % 1024 ∧ a.toNat % 1024 < 0x009 ∨
        0x00A ≤ a.toNat % 1024 ∧ a.toNat % 1024 < 0x010 ∨ 0x021 ≤ a.toNat % 1024 ∧ a.toNat % 1024 < 0x100 :=
  ⟨port_idle, by simp⟩

/-- Bytes that fill the recognition values, and the last of them; a transaction cut at its first and at its last
configuration register. -/
theorem witness_FieldWriteIsItsRow : 0 + (List.replicate 10 1#8).length ≤ 10 ∧ 9 + [1#8].length ≤ 10 ∧
    (0x00A ≤ 0x010 ∧ 0x01A ≤ 0x010 + (List.replicate 10 1#8).length ∧ 0x010 + (List.replicate 10 1#8).length < 0x100) ∧
    (0x00A ≤ 0x01F ∧ 0x01A ≤ 0x01F + [1#8].length ∧ 0x01F + [1#8].length < 0x100) ∧
    ∃ t, exec (.registerWrite (.whole (BitVec.ofNat 16 0x01F)) [1#8]) State.reset = .next t :=
  ⟨by decide, by decide, by decide, by decide, _, rfl⟩

/-- The ends of each range, and the first value out of it. -/
theorem witness_ConfigurationWriteResult : State.reset.PortIdle ∧ timingAccepts .wakeInterval 1#8 ∧ timingAccepts .wakeAttemptLimit 15#8 ∧
    timingAccepts .steerAckTimeout 255#8 ∧ timingAccepts .steerRetryLimit 7#8 ∧ ¬ timingAccepts .wakeInterval 0#8 ∧
    ¬ timingAccepts .wakeAttemptLimit 0#8 ∧ ¬ timingAccepts .wakeAttemptLimit 16#8 ∧ ¬ timingAccepts .steerAckTimeout 0#8 ∧
    ¬ timingAccepts .steerRetryLimit 8#8 ∧ noticeAccepts .noticeTrigger 1#8 ∧ noticeAccepts .noticeTrigger 32#8 ∧
    ¬ noticeAccepts .noticeTrigger 0#8 ∧ ¬ noticeAccepts .noticeTrigger 33#8 := ⟨port_idle, by decide⟩

/-- Outside STOPPED; in STOPPED the types alone (bytes 6 to 9), a group address, an enrolled address, and
another address. -/
theorem witness_RecognitionWriteResult : (inRunning State.reset).PortIdle ∧ (one .awake).PortIdle ∧
    0 < [0#8].length ∧ 9 + [0#8].length ≤ 10 ∧ 0 + (List.replicate 10 1#8).length ≤ 10 ∧
    (inRunning State.reset).steer.mode ≠ .stopped ∧ State.reset.steer.mode = .stopped ∧
    (BitVec.ofNat 48 (beNat [1#8, 0#8, 0#8, 0#8, 0#8, 0#8])).getLsbD 40 = true ∧
    (∃ i st, (one .awake).station i = some st ∧ st.address = BitVec.ofNat 48 (beNat [2#8, 0#8, 0#8, 0#8, 0xA0#8, 1#8])) ∧
    (BitVec.ofNat 48 (beNat [2#8, 0#8, 0#8, 0#8, 0xB0#8, 1#8])).getLsbD 40 = false ∧
    ∀ i st, (one .awake).station i = some st → st.address ≠ BitVec.ofNat 48 (beNat [2#8, 0#8, 0#8, 0#8, 0xB0#8, 1#8]) := by
  refine ⟨port_idle, port_idle, by decide, by decide, by decide, by decide, by decide, by decide,
    ⟨3, _, one_station _, (by decide : home = BitVec.ofNat 48 (beNat [2#8, 0#8, 0#8, 0#8, 0xA0#8, 1#8]))⟩, by decide, ?_⟩
  intro i st h
  rw [(one_only h).2]
  exact (by decide : home ≠ BitVec.ofNat 48 (beNat [2#8, 0#8, 0#8, 0#8, 0xB0#8, 1#8]))

/-- A notice of a kind. -/
def notice (k : NoticeKind) (subject : Option (Slot × Generation)) : Notice :=
  { kind := k, subject := subject, detail := .none, repeatCount := 255#8, stamp := 0xFFFF#16, age := 255#8 }

/-- A queue whose head, by class, is its second notice; and the bounds of a peek's first byte. -/
theorem witness_TakeReturnsTheHead :
    let n := notice .wakeFailed (some (3, 0#8))
    let s : State := { State.reset with nq := { State.reset.nq with queue := [notice .answerDropped none] ++ n :: [notice .steerLinkDown none] } }
    s.PortIdle ∧ s.nq.HeadIs [notice .answerDropped none] n [notice .steerLinkDown none] ∧
    (0 < 1 ∧ 1 < 16) ∧ (0 < 15 ∧ 15 < 16) ∧ State.reset.PortIdle ∧ State.reset.nq.queue = [] ∧ State.reset.mport.spi ≠ some .read :=
  ⟨port_idle, ⟨rfl, by decide, by decide⟩, by decide, by decide, port_idle, rfl, by decide⟩

theorem witness_GoResult : State.reset.cmde.engine = .idle ∧ (latching State.reset []).cmde.engine ≠ .idle ∧
    (latching State.reset []).PortIdle ∧ State.reset.PortIdle ∧ PortEvent.go ∈ [PortEvent.softReset, .go] :=
  ⟨rfl, by decide, port_idle, port_idle, by decide⟩

/-- A clear issued, and the port idle with none issued. -/
theorem witness_StickyFlagClears (f : StickyFlag) : State.reset.PortIdle ∧
    PortEvent.clear f ∈ ({ State.reset.mport with issued := [.clear f] } : Mport).issued := ⟨port_idle, List.mem_singleton.2 rfl⟩

/-- A state with RUN at a value and an event issued. -/
def port (s : State) (run : Bool) (issued : List PortEvent) : State :=
  { s with mport := { s.mport with run := run, issued := issued } }

/-- The same part in a mode. -/
def inMode (s : State) (m : Mode) : State := { s with steer := { s.steer with mode := m } }

/-- The change issued or direct, in every mode; a deferred start with RUN at 1 and at 0. -/
theorem witness_RunChangeResult (m : Mode) :
    (port (inMode State.reset m) true [.runSet]).mport.nextRun = some .runSet ∧
    ((inMode State.reset m).mport.nextRun = none ∧ (inMode State.reset m).mport.run = false ∧ (inMode State.reset m).PortIdle) ∧
    (port (inMode State.reset m) false [.runCleared]).mport.nextRun = some .runCleared ∧
    ((port (inMode State.reset m) true []).mport.nextRun = none ∧ (port (inMode State.reset m) true []).mport.run = true ∧
      (port (inMode State.reset m) true []).PortIdle) ∧
    (inMode State.reset m).steer.mode = m ∧ State.reset.mport.run = false ∧
    (let s : State := { port State.reset true [] with steer := { State.reset.steer with deferredStart := true } }
     s.steer.deferredStart = true ∧ s.steer.mode = .stopped ∧ s.mport.run = true) :=
  ⟨rfl, ⟨rfl, rfl, port_idle⟩, rfl, ⟨rfl, rfl, port_idle⟩, rfl, rfl, rfl, rfl, rfl⟩

/-- A record in each state, with the change issued or direct. -/
theorem witness_RunClearedStops (q : StationState) :
    (port (inRunning (one q)) false [.runCleared]).mport.nextRun = some .runCleared ∧
    ((port (inRunning (one q)) true []).mport.nextRun = none ∧ (port (inRunning (one q)) true []).mport.run = true ∧
      (port (inRunning (one q)) true []).PortIdle) ∧
    (inRunning (one q)).steer.mode = .running ∧ (inRunning (one q)).station 3 = some (station q) ∧
    (inRunning State.reset).station 3 = none ∧ StationState.settled .awake = true ∧ StationState.settled .lapsed = true :=
  ⟨rfl, ⟨rfl, rfl, port_idle⟩, rfl, one_station q, rfl, rfl, rfl⟩

/-! Commands -/

/-- The latched bytes. -/
theorem latched (s : State) (bytes : List Byte) :
    (latching s bytes).Latched (commandCode (Memory.ofBytes bytes)) (Memory.ofBytes bytes) := ⟨rfl, rfl⟩

/-- A handle of slot 3, generation 0. -/
theorem resolves {s : State} {q : StationState} {bytes : List Byte} (hs : s.stab = (one q).stab)
    (h : slotByte (Memory.ofBytes bytes) = 3 ∧ generationByte (Memory.ofBytes bytes) = 0#8) :
    s.Resolves (Memory.ofBytes bytes) 3 (station q) := by
  refine ⟨h.1, ?_, ?_⟩
  · rw [h.2, State.generation, hs]
    rfl
  · rw [State.station, hs]
    exact one_station q

/-- An idle engine; a busy one; a command that fails. -/
theorem witness_CommandStages : State.reset.cmde.engine = .idle ∧ Instr.unknownCommandCode ∈ commandRows ∧
    (∃ a, exec (.unknownCommandCode .checks) (latching State.reset [0x7F#8]) = .next a) ∧
    ∃ t, (latching State.reset [0x7F#8]).cmde.engine = .busy (Memory.ofBytes [0x7F#8]) .latched ∧
      exec (.unknownCommandCode .completion) (latching State.reset [0x7F#8]) = .next t ∧ t.cmde.engine = .idle ∧
      2 ≤ (Memory.read t.cmde.resultArea 2).toNat :=
  ⟨rfl, by simp [commandRows], ⟨_, rfl⟩, ⟨_, rfl, rfl, by decide, by decide⟩⟩

/-- The longest lists a record may have, the shortest, and a count of 64. -/
theorem witness_RecordLayouts : (List.replicate 252 0#8).length ≤ 252 ∧
    (station .awake).identifiers.length ≤ 8 ∧ (station .awake).rules.length ≤ 8 ∧ ((station .awake).template.getD []).length ≤ 128 ∧
    0 < (station .awake).identifiers.length ∧ 0 < (station .awake).rules.length ∧ 0 < ((station .awake).template.getD []).length ∧
    (let r : Rule := { refCount := 64, body := some { scope := .any, spans := [⟨1535, 1⟩], digest := 0#32 } }
     (∀ b, r.body = some b → b.spans.length ≤ 8) ∧ r.refCount ≤ 64 ∧ ∀ b, r.body = some b →
       ∀ k (h : k < b.spans.length), b.spans[k].offset < 65536 ∧ b.spans[k].length < 65536) := by
  refine ⟨(List.length_replicate ..).le, by decide, by decide, by decide, by decide, by decide, by decide, ?_, by decide, ?_⟩
  · rintro b ⟨⟩
    decide
  · rintro b ⟨⟩ k h
    obtain rfl : k = 0 := by simpa using h
    exact ⟨(by decide : 1535 < 65536), (by decide : 1 < 65536)⟩

/-- Arguments that pass the checks of every command with a handle, after a code, a slot and a generation. -/
def handleBytes (code slot generation : Byte) : List Byte := [code, 0#8, slot, generation, 60#8, 0#8, 0#8, 1#8, 1#8]

/-- Every command with a handle, with slot 64 and with slot 3: there its checks pass, generation 1 is not
the record's, generation 0 is, and the record may be VACANT. -/
theorem witness_HandleResolution : State.reset.generation 3 ≠ 1#8 ∧ State.reset.generation 3 = 0#8 ∧ State.reset.station 3 = none ∧
    ∀ x ∈ handleRows, 63 < slotByte (Memory.ofBytes (handleBytes x.1 64#8 0#8)) ∧
      commandCode (Memory.ofBytes (handleBytes x.1 64#8 0#8)) = x.1 ∧ ∀ g ∈ [0#8, 1#8],
        let c := Memory.ofBytes (handleBytes x.1 3#8 g)
        commandCode c = x.1 ∧ slotByte c = 3 ∧ generationByte c = g ∧
        ∃ a, exec (x.2 .checks) (latching (inRunning State.reset) (handleBytes x.1 3#8 g)) = .next a ∧
          a.cmde.engine = .busy c .checked := by
  refine ⟨by decide, by decide, by decide, ?_⟩
  intro x hx
  have hx' : x ∈ handleRows := hx
  simp only [handleRows, List.mem_cons, List.not_mem_nil, or_false] at hx'
  rcases hx' with rfl | rfl | rfl | rfl | rfl | rfl | rfl | rfl | rfl | rfl | rfl
  all_goals
    refine ⟨by decide, by decide, ?_⟩
    intro g hg
    simp only [List.mem_cons, List.not_mem_nil, or_false] at hg
    rcases hg with rfl | rfl
    all_goals exact ⟨by decide, by decide, by decide, _, rfl, by decide⟩

/-- Recognition values as a host sets them. -/
def configured (s : State) : State :=
  { s with mport := { s.mport with settings :=
    { s.mport.settings with partAddress := 0x02000000B001#48, queryType := 0x9001#16, announceType := 0x9002#16 } } }

/-- A STATION_CREATE record. -/
def createBytes (a : Address) (port : Byte) (segment : Nat) : List Byte :=
  [1#8, 0#8] ++ beBytes 6 a.toNat ++ [port] ++ beBytes 2 segment ++ [0#8, 60#8]

/-- Every slot holds a station, no two of one address. -/
def crowded : State :=
  { State.reset with stab := Vector.ofFn fun i => { generation := 0#8, station := some { station .awake with address := home + BitVec.ofNat 48 i.val } } }

/-- A group address, zero, a port of 32, a segment of 4096 and PartAddress; an address in use, a full
table, and a first VACANT slot, with the largest port and segment. -/
theorem witness_StationCreateResult :
    (0x010000000001#48).getLsbD 40 = true ∧ (0#48).getLsbD 40 = false ∧
    (∀ a ∈ [0#48, 0x010000000001#48, home, 0x02000000B001#48], addressArgument (Memory.ofBytes (createBytes a 31#8 4095)) = a ∧
      commandCode (Memory.ofBytes (createBytes a 31#8 4095)) = 1#8) ∧
    31 < (Memory.read (Memory.ofBytes (createBytes home 32#8 0)) 8).toNat ∧
    4095 < Memory.field (Memory.ofBytes (createBytes home 0#8 4096)) 9 2 ∧
    (configured State.reset).mport.settings.partAddress = 0x02000000B001#48 ∧
    ((Memory.read (Memory.ofBytes (createBytes home 31#8 4095)) 8).toNat ≤ 31 ∧
      Memory.field (Memory.ofBytes (createBytes home 31#8 4095)) 9 2 ≤ 4095) ∧
    (home.getLsbD 40 = false ∧ home ≠ 0#48 ∧ home ≠ State.reset.mport.settings.partAddress) ∧
    (∃ i st, (one .awake).station i = some st ∧ st.address = home) ∧
    ((∀ i st, crowded.station i = some st → st.address ≠ 0x02000000C001#48) ∧ ∀ i, crowded.station i ≠ none) ∧
    ((∀ j st, State.reset.station j = some st → st.address ≠ home) ∧ State.reset.station 0 = none ∧
      ∀ j < (0 : Slot), State.reset.station j ≠ none) := by
  refine ⟨by decide, by decide, ?_, by decide, by decide, by decide, by decide, by decide, ⟨3, _, one_station _, rfl⟩,
    ⟨fun i st h => ?_, fun i h => ?_⟩, fun j st h => ?_, by decide, fun j h => absurd h (by simp)⟩
  · intro a ha
    simp only [List.mem_cons, List.not_mem_nil, or_false] at ha
    rcases ha with rfl | rfl | rfl | rfl <;> decide
  · have hi : some { station .awake with address := home + BitVec.ofNat 48 i.val } = some st := by
      rw [← h]
      simp [State.station, crowded]
    cases hi
    revert i
    decide
  · simp [State.station, crowded] at h
  · simp [State.station, State.reset] at h

/-- Lengths 59 and 129, 60 and 128; a record of any state. -/
theorem witness_TemplateReadClearResult (q : StationState) :
    (∀ n ∈ [59#8, 60#8, 128#8, 129#8], commandCode (Memory.ofBytes (2#8 :: 0#8 :: 3#8 :: 0#8 :: [n])) = 2#8 ∧
      Memory.read (Memory.ofBytes (2#8 :: 0#8 :: 3#8 :: 0#8 :: [n])) 4 = n) ∧
    (∀ x ∈ [2#8, 3#8, 8#8, 12#8], commandCode (Memory.ofBytes [x, 0#8, 3#8, 0#8, 60#8]) = x) ∧
    (latching (one q) [2#8, 0#8, 3#8, 0#8, 60#8]).Resolves (Memory.ofBytes [2#8, 0#8, 3#8, 0#8, 60#8]) 3 (station q) ∧
    (latching (one q) [3#8, 0#8, 3#8, 0#8]).Resolves (Memory.ofBytes [3#8, 0#8, 3#8, 0#8]) 3 (station q) ∧
    (latching (one q) [8#8, 0#8, 3#8, 0#8]).Resolves (Memory.ofBytes [8#8, 0#8, 3#8, 0#8]) 3 (station q) ∧
    (latching (one q) [12#8, 0#8, 3#8, 0#8]).Resolves (Memory.ofBytes [12#8, 0#8, 3#8, 0#8]) 3 (station q) :=
  ⟨by decide, by decide, resolves rfl (by decide), resolves rfl (by decide), resolves rfl (by decide), resolves rfl (by decide)⟩

/-- An address a record holds, and one that no record holds. -/
theorem witness_StationFindResult :
    let bytes : List Byte := [0x0D#8, 0#8] ++ beBytes 6 home.toNat
    (latching (one .awake) bytes).Latched 0x0D#8 (Memory.ofBytes bytes) ∧ (latching (one .awake) bytes).AddressesUnique ∧
    (∃ st, (latching (one .awake) bytes).station 3 = some st ∧ st.address = addressArgument (Memory.ofBytes bytes)) ∧
    ∀ i st, (latching (one .awake) [0x0D#8]).station i = some st → st.address ≠ addressArgument (Memory.ofBytes [0x0D#8]) := by
  refine ⟨⟨rfl, by decide⟩, one_unique rfl (by decide), ⟨_, one_station _, by decide⟩, fun i st h => ?_⟩
  rw [(one_only h).2]
  exact (by decide : home ≠ addressArgument (Memory.ofBytes [0x0D#8]))

/-- A station with eight identifiers and eight rules. -/
def laden (q : StationState) : Station :=
  { station q with
    identifiers := (List.range 8).map fun k => { identifier := BitVec.ofNat 32 (k + 1), wakeOnQuery := false }
    rules := (List.finRange 96).take 8 }

/-- The identifiers 0, 0xFFFFFFFF and another, the flag 2; an identifier in the map, a full list, a full map
and a place in both; an identifier listed and one not; a rule number of 96, a FREE rule and a DEFINED one,
listed and not. -/
theorem witness_ListCommandsResult (q : StationState) :
    (∀ x ∈ [(0#32, 2#8), (0xFFFFFFFF#32, 1#8), (0x0A000001#32, 1#8)], ∀ code ∈ [4#8, 5#8],
      let c := Memory.ofBytes ([code, 0#8, 3#8, 0#8] ++ beBytes 4 x.1.toNat ++ [x.2])
      commandCode c = code ∧ identifierArgument c = x.1 ∧ Memory.read c 8 = x.2) ∧
    (∀ code ∈ [4#8, 5#8], (one q).Resolves (Memory.ofBytes [code, 0#8, 3#8, 0#8, 10#8, 0#8, 0#8, 1#8, 1#8]) 3 (station q)) ∧
    (let s : State := { one q with idmap := [⟨0x0A000001#32, 10#12, 3, true⟩] }
     (∃ e ∈ s.idmap, e.identifier = 0x0A000001#32 ∧ e.segment = (station q).segment) ∧
     ∀ e ∈ s.idmap, e.identifier = 0x0A000002#32 → e.segment ≠ (station q).segment) ∧
    (8 ≤ (laden q).identifiers.length ∧ 8 ≤ (laden q).rules.length ∧ (station q).identifiers.length < 8 ∧
      (station q).rules.length < 8 ∧ 256 ≤ (List.replicate 256 (⟨1#32, 0#12, 0, true⟩ : MapEntry)).length ∧ (one q).idmap.length < 256) ∧
    ((∃ l ∈ (station q).identifiers, l.identifier = 0x0A000001#32) ∧ ∀ l ∈ (station q).identifiers, l.identifier ≠ 0x0A000002#32) ∧
    (95 < listedRuleByte (Memory.ofBytes [6#8, 0#8, 3#8, 0#8, 96#8]) ∧ listedRuleByte (Memory.ofBytes [6#8, 0#8, 3#8, 0#8, 95#8]) = 95 ∧
      listedRuleByte (Memory.ofBytes [7#8, 0#8, 3#8, 0#8, 2#8]) = 2) ∧
    ((one q).rstore[95].body = none ∧
      (tset (one q).rstore (95 : RuleNumber) { refCount := 0, body := some ⟨.any, [⟨0, 1⟩], 0#32⟩ })[95].body ≠ none) ∧
    (2 : RuleNumber) ∈ (station q).rules ∧ (95 : RuleNumber) ∉ (station q).rules := by
  refine ⟨?_, fun code hc => ?_, ⟨⟨_, List.mem_singleton.2 rfl, rfl, rfl⟩, ?_⟩,
    ⟨by simp [laden], by simp [laden], by simp [station], by simp [station],
      (List.length_replicate ..).ge, (by decide : 0 < 256)⟩, ⟨?_, ?_⟩, by decide, ⟨rfl, by rw [tset]; simp⟩, ?_, ?_⟩
  · intro x hx code hc
    simp only [List.mem_cons, List.not_mem_nil, or_false] at hx hc
    rcases hx with rfl | rfl | rfl <;> rcases hc with rfl | rfl <;> decide
  · refine resolves rfl ?_
    simp only [List.mem_cons, List.not_mem_nil, or_false] at hc
    rcases hc with rfl | rfl <;> decide
  all_goals simp [station]

/-- Both commands, outside RUNNING and in it, with a slot of 63; the link UP and not; a station with a
template and one without; and, for both and for STATION_RETIRE, a record in any state. -/
theorem witness_SleepAndWakeCommandsResult (q : StationState) (code : Byte) (h : code = 9#8 ∨ code = 10#8 ∨ code = 11#8) :
    let bytes : List Byte := [code, 0#8, 3#8, 0#8, 0#8, 60#8]
    commandCode (Memory.ofBytes bytes) = code ∧ slotByte (Memory.ofBytes [code, 0#8, 63#8]) ≤ 63 ∧
    (latching (one q) bytes).steer.mode ≠ .running ∧ (latching (inRunning (one q)) bytes).steer.mode = .running ∧
    (latching (inRunning (one q)) bytes).steer.link = .up ∧ (latching (one q) bytes).steer.link ≠ .up ∧
    (latching (inRunning (one q)) bytes).Resolves (Memory.ofBytes bytes) 3 (station q) ∧
    (station q).template ≠ none ∧ { station q with template := none }.template = none ∧
    (60#16 : Half) = BitVec.ofNat 16 (Memory.field (Memory.ofBytes bytes) 4 2) := by
  rcases h with rfl | rfl | rfl <;>
    exact ⟨by decide, by decide, Mode.noConfusion, rfl, rfl, LinkState.noConfusion, resolves rfl (by decide), by simp [station], rfl, by decide⟩

theorem witness_StationRetireResult (q : StationState) :
    let bytes : List Byte := [11#8, 0#8, 3#8, 0#8]
    (latching (one q) bytes).Latched 11#8 (Memory.ofBytes bytes) ∧
    (latching (one q) bytes).Resolves (Memory.ofBytes bytes) 3 (station q) ∧ (station q).rules.Nodup :=
  ⟨⟨rfl, by decide⟩, resolves rfl (by decide), by simp [station]⟩

/-- Rule 96; scope 0 and 3; 0 and 9 spans; a span that ends past a frame; two that overlap. The largest
rule number with eight spans that adjoin, the last at the end of a frame, 256 bytes in all. A rule FREE,
DEFINED, and in use. -/
theorem witness_RuleDefineDeleteResult :
    let ok : List Byte := [0x20#8, 0#8, 95#8, 2#8, 4#8, 1#8, 2#8, 3#8, 4#8] ++
      [5#8, 0#8, 0#8, 64#8] ++ [5#8, 64#8, 0#8, 64#8] ++ [5#8, 128#8, 0#8, 64#8] ++ [5#8, 192#8, 0#8, 64#8]
    let spans : List Span := [⟨1280, 64⟩, ⟨1344, 64⟩, ⟨1408, 64⟩, ⟨1472, 64⟩]
    (commandCode (Memory.ofBytes ok) = 0x20#8 ∧ ruleByte (Memory.ofBytes ok) = 95 ∧ Scope.any.number = Memory.read (Memory.ofBytes ok) 3 ∧
      1 ≤ (Memory.read (Memory.ofBytes ok) 4).toNat ∧ (Memory.read (Memory.ofBytes ok) 4).toNat ≤ 8 ∧
      spans = spanArguments (Memory.ofBytes ok) (Memory.read (Memory.ofBytes ok) 4).toNat ∧
      (∀ x ∈ spans, x.offset ≤ 1535 ∧ 1 ≤ x.length ∧ x.length ≤ 64 ∧ x.offset + x.length ≤ 1536) ∧
      spans.Pairwise (fun x y => x.offset + x.length ≤ y.offset) ∧ (spans.map (·.length)).sum ≤ 256) ∧
    (95 < ruleByte (Memory.ofBytes [0x20#8, 0#8, 96#8]) ∧ Memory.read (Memory.ofBytes [0x20#8]) 3 ≠ 1#8 ∧
      Memory.read (Memory.ofBytes [0x20#8]) 3 ≠ 2#8 ∧ (Memory.read (Memory.ofBytes [0x20#8]) 4).toNat < 1 ∧
      8 < (Memory.read (Memory.ofBytes [0x20#8, 0#8, 0#8, 1#8, 9#8]) 4).toNat) ∧
    ¬ (∀ x ∈ [(⟨1535, 2⟩ : Span)], x.offset ≤ 1535 ∧ 1 ≤ x.length ∧ x.length ≤ 64 ∧ x.offset + x.length ≤ 1536) ∧
    ¬ [(⟨0, 2⟩ : Span), ⟨1, 1⟩].Pairwise (fun x y => x.offset + x.length ≤ y.offset) ∧
    (commandCode (Memory.ofBytes [0x21#8, 0#8, 96#8]) = 0x21#8 ∧ 95 < ruleByte (Memory.ofBytes [0x21#8, 0#8, 96#8]) ∧
      ruleByte (Memory.ofBytes [0x21#8, 0#8, 95#8]) = 95 ∧ State.reset.rstore[95].body = none) ∧
    ∀ n ∈ [0, 1], (tset State.reset.rstore (95 : RuleNumber) { refCount := n, body := some ⟨.any, spans, 0#32⟩ })[95].body ≠ none ∧
      (tset State.reset.rstore (95 : RuleNumber) { refCount := n, body := some ⟨.any, spans, 0#32⟩ })[95].refCount = n := by
  decide

theorem witness_RuleReadResult : commandCode (Memory.ofBytes [0x22#8, 0#8, 96#8]) = 0x22#8 ∧
    95 < ruleByte (Memory.ofBytes [0x22#8, 0#8, 96#8]) ∧ ruleByte (Memory.ofBytes [0x22#8, 0#8, 95#8]) = 95 ∧
    State.reset.rstore[95].refCount ≤ 64 ∧ State.reset.rstore[95].body = none ∧
    ∃ b, (tset State.reset.rstore (95 : RuleNumber) { refCount := 64, body := some ⟨.any, [⟨1535, 1⟩], 0#32⟩ })[95].body = some b ∧
      b.spans.length ≤ 8 ∧ ∀ x ∈ b.spans, x.offset < 65536 ∧ x.length < 65536 :=
  ⟨by decide, by decide, by decide, by decide, by decide, _, rfl, by decide, by decide⟩

/-- The link DOWN with a request in flight and with none, and not DOWN; the codes at the ends of the gaps. -/
theorem witness_RestartAndUnknownResult :
    commandCode (Memory.ofBytes [0x30#8]) = 0x30#8 ∧ (latching State.reset [0x30#8]).steer.link ≠ .down ∧
    (let s : State := { State.reset with steer := { State.reset.steer with link := .down, inFlight := some ⟨.clearAll, 15#4, 7⟩ } }
     s.steer.link = .down ∧ s.steer.inFlight = some ⟨.clearAll, 15#4, 7⟩) ∧
    (let s : State := { State.reset with steer := { State.reset.steer with link := .down } }
     s.steer.link = .down ∧ s.steer.inFlight = none) ∧
    ∀ code ∈ [0x00#8, 0x0E#8, 0x1F#8, 0x23#8, 0x2F#8, 0x31#8, 0xFF#8], commandCode (Memory.ofBytes [code]) = code ∧
      (code = 0x00#8 ∨ 0x0D#8 < code ∧ code < 0x20#8 ∨ 0x22#8 < code ∧ code < 0x30#8 ∨ 0x30#8 < code) := by decide

/-! Frames in -/

/-- A frame that came in by the station's port and segment. -/
def frame (reason : DeliveryReason) (destination source : Address) (type : Nat) (payload : List Byte) : Frame :=
  { ingress := 3#5, segment := 10#12, reason := reason
    bytes := beBytes 6 destination.toNat ++ beBytes 6 source.toNat ++ beBytes 2 type ++ payload }

/-- The same part classifying a frame in intake slot 0. -/
def classifying (s : State) (f : Frame) (next : NextTest) (g : Option Slot) : State :=
  { s with icls := { slots := tset s.icls.slots 0 (.unclassified f), arrivals := [0], current := some { next := next, sighted := g } } }

theorem classifying_is (s : State) (f : Frame) (next : NextTest) (g : Option Slot) :
    (classifying s f next g).Classifying 0 f next g := ⟨⟨[], rfl⟩, by simp [classifying, tset], rfl⟩

/-- The announcement of the station, and another announcer's. -/
def announcementOf (source : Address) (op : Byte) : Frame := frame .direct 0x02000000B001#48 source 0x9002 [op, 0#8, 0#8, 6#8, 0#8, 60#8]

/-- A query or probe payload for the station's identifier. -/
def queryOf (reason : DeliveryReason) (op : Byte) (sender : Address) : Frame :=
  frame reason home 0x02000000D001#48 0x9001 ([op, 0#8] ++ beBytes 6 sender.toNat ++ [0#8, 0#8, 0#8, 9#8, 0x0A#8, 0#8, 0#8, 1#8])

/-- An intake with one transfer in progress. -/
def intakeBusy : Icls := { slots := #v[.free, .free, .arriving, .free], arrivals := [], current := none }

/-- A port that is ready; a transfer in progress, in RUNNING and in STOPPED; a part that is STOPPED, and one with no
slot free; none in progress. -/
theorem witness_FrameArrivalResult :
    ((inRunning State.reset).steer.mode = .running ∧ (inRunning State.reset).icls.slots[0] = .free ∧
      (∀ k : Fin 4, k < 0 → (inRunning State.reset).icls.slots[k.val] ≠ .free) ∧
      ∀ k : Fin 4, (inRunning State.reset).icls.slots[k.val] ≠ .arriving) ∧
    (let s : State := { State.reset with icls := intakeBusy }
     s.steer.mode ≠ .running ∧ s.icls.slots[2] = .arriving ∧ ∀ k : Fin 4, k < 2 → s.icls.slots[k.val] ≠ .arriving) ∧
    (∃ k : Fin 4, intakeBusy.slots[k.val] = .arriving) ∧ State.reset.steer.mode ≠ .running ∧
    ∀ k : Fin 4, (Vector.replicate 4 IntakeSlot.arriving)[k.val] ≠ .free := by
  decide

/-- Test 1 at the ends of the ranges of an intake tag and of a frame's length, and the first values past them. -/
theorem witness_FirstTestsResult_test_1 :
    (let a : Arrived := ⟨⟨31#8, 4095#16, 3#8, 14#16⟩, List.replicate 14 0#8, 14⟩
     let s : State := { State.reset with icls := { slots := #v[.received a, .free, .free, .free], arrivals := [0], current := none } }
     s.icls.arrivals = 0 :: [] ∧ s.icls.slots[0] = .received a ∧ (31#5).toNat = a.tag.ingress.toNat ∧
       (4095#12).toNat = a.tag.segment.toNat ∧ a.tag.reason = 3#8 ∧ 14 ≤ a.tag.length.toNat ∧ a.tag.length.toNat ≤ 1536 ∧
       a.count = a.tag.length.toNat) ∧
    (14 ≤ (1536#16).toNat ∧ (1536#16).toNat ≤ 1536) ∧
    (31 < (32#8).toNat ∧ 4095 < (4096#16).toNat ∧ (0#8).toNat < 1 ∧ 3 < (4#8).toNat ∧ (13#16).toNat < 14 ∧
      1536 < (1537#16).toNat ∧ 15 ≠ (14#16).toNat) := by
  decide

/-- The frame of an announcement in configured RUNNING, and the other two delivery reasons; a sighting of
each state, and a frame that came in elsewhere; each reason why an announcement is discarded; a known
announcer, and an unknown one. -/
theorem witness_FirstTestsResult (q : StationState) :
    let s := configured (inRunning (one q))
    let seen := frame .flood 0x02000000D001#48 home 0x0800 (List.replicate 46 0#8)
    ((classifying s seen .sighting none).Classifying 0 seen .sighting none ∧ (classifying s seen .sighting none).AddressesUnique ∧
      seen.reason = .flood) ∧
    ((station q).address = frameSource seen.bytes ∧ seen.ingress = (station q).port ∧ seen.segment = (station q).segment ∧
      s.station 3 = some (station q) ∧ ¬ s.AnnouncementForm seen ∧ ({ seen with ingress := 4#5 } : Frame).ingress ≠ (station q).port) ∧
    (∀ op ∈ [1#8, 2#8, 3#8], s.AnnouncementForm (announcementOf home op) ∧ byteAt (announcementOf home op).bytes 14 = op) ∧
    ((classifying s (announcementOf home 1#8) .announcement none).Classifying 0 (announcementOf home 1#8) .announcement none ∧
      (classifying s (announcementOf home 1#8) .announcement none).AddressesUnique) ∧
    (s.mport.settings.partAddress ≠ 0#48 ∧ State.reset.mport.settings.partAddress = 0#48 ∧
      20 ≤ (announcementOf home 1#8).bytes.length ∧ (frame .direct 0#48 home 0x9002 [1#8, 0#8, 0#8, 6#8, 0#8]).bytes.length < 20 ∧
      (frameSource (announcementOf home 1#8).bytes).getLsbD 40 = false ∧
      (frameSource (announcementOf 0x010000000001#48 1#8).bytes).getLsbD 40 = true) ∧
    ((station q).address = frameSource (announcementOf home 1#8).bytes ∧ (announcementOf home 1#8).ingress = (station q).port ∧
      (announcementOf home 1#8).segment = (station q).segment) ∧
    ∀ i st, s.station i = some st → st.address ≠ frameSource (announcementOf 0x02000000D001#48 1#8).bytes := by
  refine ⟨⟨classifying_is _ _ _ _, one_unique rfl (by show 0x02000000B001#48 ≠ home; decide), rfl⟩,
    ⟨?_, rfl, rfl, one_station q, fun h => DeliveryReason.noConfusion h.1, by show 4#5 ≠ 3#5; decide⟩, ?_,
    ⟨classifying_is _ _ _ _, one_unique rfl (by show 0x02000000B001#48 ≠ home; decide)⟩,
    ⟨by show 0x02000000B001#48 ≠ 0#48; decide, rfl, by decide, by decide, by decide, by decide⟩, ⟨?_, rfl, rfl⟩, ?_⟩
  · exact (by decide : home = frameSource (frame .flood 0x02000000D001#48 home 0x0800 (List.replicate 46 0#8)).bytes)
  · intro op hop
    simp only [List.mem_cons, List.not_mem_nil, or_false] at hop
    rcases hop with rfl | rfl | rfl
    all_goals
      refine ⟨⟨rfl, ?_, ?_, ?_⟩, by decide⟩
      · show frameDestination (announcementOf home _).bytes = 0x02000000B001#48
        decide
      · show 0x9002#16 ≠ 0#16
        decide
      · show frameType (announcementOf home _).bytes = 0x9002#16
        decide
  · exact (by decide : home = frameSource (announcementOf home 1#8).bytes)
  · intro i st h
    rw [(one_only h).2]
    exact (by decide : home ≠ frameSource (announcementOf 0x02000000D001#48 1#8).bytes)

/-- A query whose identifier the map holds, of another station and of the record's own; one that is no query
form, has another op, or has a group sender; an empty map; a record of each state, and no record; a probe
to the record. -/
theorem witness_AnswerTestsResult (q : StationState) (flag : Bool) :
    let s := configured (inRunning { one q with idmap := [⟨0x0A000001#32, 10#12, 3, true⟩] })
    let ask := queryOf .flood 1#8 0x02000000D001#48
    let probe := queryOf .steered 3#8 0x02000000D001#48
    ((classifying s ask .query none).Classifying 0 ask .query none ∧ ((classifying s ask .query none).idmap.map MapEntry.key).Nodup ∧
      (classifying s ask (.answer 3 flag) none).Classifying 0 ask (.answer 3 flag) none ∧
      (classifying s probe .probe none).Classifying 0 probe .probe none ∧ (classifying s probe .probe none).AddressesUnique) ∧
    (s.QueryForm ask ∧ s.QueryForm probe ∧ byteAt ask.bytes 14 = 1#8 ∧ byteAt probe.bytes 14 = 3#8 ∧
      (querySender ask.bytes).getLsbD 40 = false ∧ (querySender (queryOf .flood 1#8 0x010000000001#48).bytes).getLsbD 40 = true ∧
      ¬ s.QueryForm (announcementOf home 1#8)) ∧
    (∃ e ∈ s.idmap, e.identifier = queryTarget ask.bytes ∧ e.segment = ask.segment) ∧
    (∀ e ∈ (one q).idmap, e.identifier = queryTarget ask.bytes → e.segment ≠ ask.segment) ∧
    (s.station 3 = some (station q) ∧ (inRunning State.reset).station 3 = none ∧ (station q).address ≠ querySender ask.bytes ∧
      (station q).address = querySender (queryOf .flood 1#8 home).bytes ∧ (station q).address = frameDestination probe.bytes ∧
      querySender probe.bytes ≠ (station q).address) := by
  have hq : ∀ f : Frame, frameType f.bytes = 0x9001#16 → 30 ≤ f.bytes.length →
      (configured (inRunning { one q with idmap := [⟨0x0A000001#32, 10#12, 3, true⟩] })).QueryForm f := fun f h h' =>
    ⟨by show 0x9001#16 ≠ 0#16; decide, h, h'⟩
  refine ⟨⟨classifying_is _ _ _ _, List.nodup_singleton _, classifying_is _ _ _ _, classifying_is _ _ _ _,
      one_unique rfl (by show 0x02000000B001#48 ≠ home; decide)⟩,
    ⟨hq _ (by decide) (by decide), hq _ (by decide) (by decide), by decide, by decide, by decide, by decide, fun h => ?_⟩,
    ⟨_, List.mem_singleton.2 rfl, by show 0x0A000001#32 = queryTarget (queryOf .flood 1#8 0x02000000D001#48).bytes; decide, rfl⟩,
    fun e he => absurd he List.not_mem_nil, one_station q, rfl, ?_, ?_, ?_, ?_⟩
  · exact absurd h.2.2 (by decide)
  · exact (by decide : home ≠ querySender (queryOf .flood 1#8 0x02000000D001#48).bytes)
  · exact (by decide : home = querySender (queryOf .flood 1#8 home).bytes)
  · exact (by decide : home = frameDestination (queryOf .steered 3#8 0x02000000D001#48).bytes)
  · exact (by decide : querySender (queryOf .steered 3#8 0x02000000D001#48).bytes ≠ home)

/-- Rule 2 as a rule that every frame of a type matches, and its digest one off. -/
def ruled (s : State) (digest : BitVec 32) : State :=
  { s with rstore := tset s.rstore (2 : RuleNumber) { refCount := 1, body := some ⟨.any, [⟨12, 1⟩], digest⟩ } }

theorem rule_matches (s : State) {f : Frame} (h : f.reason = .steered ∨ f.reason = .flood)
    (hm : (⟨.any, [⟨12, 1⟩], 0x527D5351#32⟩ : RuleBody).matchesFrame f.bytes = true) :
    ruleMatches (ruled s 0x527D5351#32).rstore f 2 = true := by
  have e : (ruled s 0x527D5351#32).rstore[(2 : RuleNumber).val].body = some ⟨.any, [⟨12, 1⟩], 0x527D5351#32⟩ := by
    simp [ruled, tset]
  rw [ruleMatches, e]
  show ((Scope.any.admits f.reason) && _) = true
  rw [hm]
  rcases h with h | h <;> rw [h] <;> rfl

set_option maxRecDepth 4000 in
/-- A frame to no record, and one to a record of each state, with a rule that matches and with none; the
emission queue with a place and full. -/
theorem witness_SteeredTest (q : StationState) (digest : BitVec 32) :
    let s := ruled (inRunning (one q)) digest
    let f := frame .steered home 0x02000000D001#48 0 (List.replicate 46 0#8)
    (classifying s f .steered none).Classifying 0 f .steered none ∧ (classifying s f .steered none).AddressesUnique ∧
    s.station 3 = some (station q) ∧ (station q).address = frameDestination f.bytes ∧
    (∀ i st, (inRunning State.reset).station i = some st → st.address ≠ frameDestination f.bytes) ∧
    (inRunning (ruled (one q) 0x527D5351#32)).FirstMatch (station q).rules f 2 ∧
    (∀ n ∈ (station q).rules, ruleMatches (one q).rstore f n = false) ∧
    s.emit.size < 16 ∧ 16 ≤ ({ sending := none, waiting := List.replicate 16 ⟨.pass 0, 0#5, 0#12⟩ } : Emit).size := by
  refine ⟨classifying_is _ _ _ _, one_unique rfl (by show 0#48 ≠ home; decide), one_station q, ?_, fun i st h => ?_,
    ⟨[], [], rfl, fun _ hm => absurd hm List.not_mem_nil, rule_matches _ (.inl rfl) (by decide)⟩, fun n hn => ?_,
    (by decide : 0 < 16), by decide⟩
  · exact (by decide : home = frameDestination (frame .steered home 0x02000000D001#48 0 (List.replicate 46 0#8)).bytes)
  · simp [State.station, inRunning, State.reset] at h
  · simp [ruleMatches, one, State.setStation, State.reset]

set_option maxRecDepth 4000 in
/-- A frame flooded in the record's segment, with the record ASLEEP and its rule ANY and matching. -/
theorem witness_FloodTest :
    let s := ruled (inRunning (one (.asleep none))) 0x527D5351#32
    let f := frame .flood 0xFFFFFFFFFFFF#48 0x02000000D001#48 0 (List.replicate 46 0#8)
    (classifying s f (.flood 0) none).Classifying 0 f (.flood 0) none ∧ s.station 3 = some (station (.asleep none)) ∧
    (station (.asleep none)).segment = f.segment ∧ s.FirstMatch (station (.asleep none)).rules f 2 :=
  ⟨classifying_is _ _ _ _, one_station _, rfl, [], [], rfl, fun _ hm => absurd hm List.not_mem_nil, rule_matches _ (.inr rfl) (by decide)⟩

/-- A single test that leaves the classification going, one that ends it, a frame with its first test made and one
without, and no frame waiting. -/
theorem witness_ClassificationEnds :
    let f := frame .direct 0x02000000B001#48 home 0x0800 []
    (∃ t, exec (.frameClassification (.tests 1)) (classifying State.reset f .sighting none) = .next t ∧ t.icls.current ≠ none) ∧
    (∃ t, exec (.frameClassification (.tests 1)) (classifying State.reset f .announcement none) = .next t ∧ t.icls.current = none) ∧
    ((classifying State.reset f .sighting none).icls.arrivals = 0 :: [] ∧
      ∃ g, (classifying State.reset f .sighting none).icls.slots[0] = .unclassified g) ∧
    (∀ a : Arrived, (#v[IntakeSlot.received a, .free, .free, .free] : Vector IntakeSlot 4)[0] = .received a) ∧
    State.reset.icls.arrivals = [] ∧ 70 ≤ 70 :=
  ⟨⟨_, rfl, by decide⟩, ⟨_, rfl, by decide⟩, ⟨rfl, _, by simp [classifying, tset]; rfl⟩, fun _ => rfl, rfl, le_rfl⟩

/-! Events at the Station Table -/

theorem presents {s : State} {q : StationState} {k : PresentedKind} (hs : s.stab = (one q).stab)
    (hp : s.presented = [{ slot := 3, address := home, kind := k }]) : s.Presents 3 (station q) k [] [] := by
  refine ⟨⟨hp, fun p h => absurd h List.not_mem_nil⟩, ?_⟩
  rw [State.station, hs]
  exact one_station q

/-- A sequence 1 and 32767 ahead, with a last sequence of 5, and any with none. -/
theorem new_sequences : NewSequence (some 5#16) 6#16 ∧ NewSequence (some 5#16) 32772#16 ∧ NewSequence none 5#16 := by
  refine ⟨?_, ?_, ?_⟩ <;> intro l h <;> first | (cases h; decide) | exact nomatch h

/-- A station's request. -/
def request (k : SteerKind) : SteerRequest := { kind := k, slot := 3, address := home, segment := 10#12, port := 3#5 }

/-- A sighting and an AWAKE announcement at a record of each state; an ENTERING record's DIVERT unsent and in
flight. -/
theorem witness_ConfirmationResult (q : StationState) :
    (presenting (one q) .sighting).ConfirmationEvent (.sighting 3) 3 (station q) (station q) [] [] [] ∧
    (presenting (one q) (.announcement .awake 6#16 0#16)).ConfirmationEvent (.announcement 3) 3 (station q)
      { station q with lastSequence := some 6#16 } [] [] [] ∧
    [request .restore, request .divert] = [request .restore] ++ request .divert :: [] ∧
    (∀ r ∈ [request .restore], ¬ (r.kind = .divert ∧ r.slot = 3)) ∧
    (let t : Steer := { Steer.reset with mode := .running, link := .up, inFlight := some ⟨.station (request .divert), 0#4, 0⟩ }
     (∀ r ∈ t.queue, ¬ (r.kind = .divert ∧ r.slot = 3)) ∧ t.sent 3 = some .divert) :=
  ⟨.inl ⟨rfl, presents rfl rfl, rfl, rfl⟩, .inr (.inl ⟨6#16, 0#16, rfl, presents rfl rfl, new_sequences.1, rfl, rfl⟩), rfl,
    by decide, by decide⟩

/-- A new SLEEP announcement confirms a WAKING record and an exhausted one; a WAKING record with a held frame
and without; the emission queue with 15 entries, and with 16. -/
theorem witness_WakingConfirmed (cause : WakeCause) (held : Option (Fin 16)) :
    let q : StationState := .waking cause held
    let full (n : Nat) : Emit := { sending := none, waiting := List.replicate n ⟨.pass 0, 0#5, 0#12⟩ }
    let kept (n : Nat) : List Entry := (full n).waiting.filter fun x => decide (x.kind ≠ .wake 3 home)
    (presenting (one q) (.announcement .sleep 6#16 0#16)).ConfirmationEvent (.announcement 3) 3 (station q)
      { station q with lastSequence := some 6#16, lastAck := some (.inTransition, 0#16) }
      [ackJobFor 3 (station q) .inTransition 6#16 0#16] [] [] ∧
    (presenting (one q) .sighting).ConfirmationEvent (.sighting 3) 3 (station q) (station q) [] [] [] ∧
    (station q).state = .waking cause held ∧ (station (.leaving .exhausted none)).state = .leaving .exhausted none ∧
    (tset State.reset.hold (15 : Fin 16) (.reserved [7#8]))[15] = .reserved [7#8] ∧
    (if (full 15).sending.isSome = true then 1 else 0) + (kept 15).length < 16 ∧
    16 ≤ (if (full 16).sending.isSome = true then 1 else 0) + (kept 16).length :=
  ⟨.inr (.inr ⟨6#16, 0#16, rfl, presents rfl rfl, new_sequences.1, .inl ⟨cause, held, rfl⟩, rfl, rfl⟩),
    .inl ⟨rfl, presents rfl rfl, rfl, rfl⟩, rfl, rfl, by simp [tset], by decide, by decide⟩

/-- A new SLEEP at a record of each state, in STOPPED and in RUNNING with the link DOWN and UP; a sequence
that is not new: repeated, one behind, and 32768 away. -/
theorem witness_AnnouncementResult (q : StationState) :
    (presenting (one q) (.announcement .sleep 6#16 0#16)).Presents 3 (station q) (.announcement .sleep 6#16 0#16) [] [] ∧
    NewSequence (station q).lastSequence 6#16 ∧ (station q).lastSequence = some 5#16 ∧
    ¬ 1 ≤ (5#16 - 5#16 : Half).toNat ∧ ¬ (4#16 - 5#16 : Half).toNat ≤ 32767 ∧ ¬ (32773#16 - 5#16 : Half).toNat ≤ 32767 ∧
    (∀ n, (presenting (one q) (.announcement .sleep n 0#16)).Presents 3 (station q) (.announcement .sleep n 0#16) [] []) ∧
    (one q).steer.mode ≠ .running ∧ (inRunning (one q)).steer.mode = .running ∧ (inRunning (one q)).steer.link = .up ∧
    LinkState.down ≠ .up ∧ (station q).template ≠ none ∧ (station q).lastAck = some (.accepted, 60#16) :=
  ⟨presents rfl rfl, new_sequences.1, rfl, by decide, by decide, by decide, fun _ => presents rfl rfl, Mode.noConfusion, rfl, rfl, LinkState.noConfusion,
    by simp [station], rfl⟩

/-- A trigger with a frame and without, at a record of each state, with a buffer free and with none. -/
theorem witness_WakeTriggerResult (q : StationState) (frame : Option (Fin 4)) (f : Frame) :
    (presenting (one q) (.trigger (.rule 2) frame)).Presents 3 (station q) (.trigger (.rule 2) frame) [] [] ∧
    (tset State.reset.icls.slots (3 : Fin 4) (.triggered f))[3] = .triggered f ∧
    (State.reset.hold[0] = .free ∧ ∀ k < (0 : Fin 16), State.reset.hold[k.val] ≠ .free) ∧
    (∀ b : Fin 16, (Vector.replicate 16 (HeldBuffer.reserved []))[b.val] ≠ .free) ∧
    (one q).emit.size < 16 ∧ 16 ≤ ({ sending := none, waiting := List.replicate 16 ⟨.pass 0, 0#5, 0#12⟩ } : Emit).size :=
  ⟨presents rfl rfl, by simp [tset], by decide, by decide, (by decide : 0 < 16), by decide⟩

theorem witness_ShedAndVoidEvents (q : StationState) (k : PresentedKind) :
    (presenting (one q) .shed).Presents 3 (station q) .shed [] [] ∧
    (presenting State.reset k).PresentsFor 3 home k [] [] ∧ ∀ st, (presenting State.reset k).station 3 = some st → st.address ≠ home :=
  ⟨presents rfl rfl, ⟨rfl, fun _ h => absurd h List.not_mem_nil⟩, fun _ h => nomatch h⟩

/-! Time -/

/-- A lease of 1 with 1 boundary to pass, of 2 with 1, and one that has run out; a record in another state. -/
theorem witness_LeaseTime : let q (n : Half) (out : Bool) : StationState := .asleep (some { remaining := n, runOut := out })
    (one (q 1#16 false)).station 3 = some (station (q 1#16 false)) ∧ (1#16).toNat ≤ 1 ∧ ¬ 1 < (1#16).toNat ∧
    (one (q 2#16 false)).station 3 = some (station (q 2#16 false)) ∧ 1 < (2#16).toNat ∧
    (one (q 1#16 true)).station 3 = some (station (q 1#16 true)) ∧
    (one .awake).station 3 = some (station .awake) ∧ State.reset.station 3 = none :=
  ⟨one_station _, by decide, by decide, one_station _, by decide, one_station _, one_station _, rfl⟩

/-- A WAKING record with its context, due after 10 boundaries, below the attempt limit and at it. -/
theorem witness_IntervalExpiryResult (cause : WakeCause) (held : Option (Fin 16)) :
    let s : State := { one (.waking cause held) with wake := tset State.reset.wake (3 : Slot) (some ⟨home, 10⟩) }
    s.wake[3] = some ⟨home, 10⟩ ∧ 9 < 10 ∧ 10 ≤ 10 ∧ s.station 3 = some (station (.waking cause held)) ∧
    (station (.waking cause held)).state = .waking cause held ∧ home = (station (.waking cause held)).address ∧
    (station (.waking cause held)).wakeAttempts < s.mport.settings.wakeAttemptLimit.toNat ∧
    s.mport.settings.wakeAttemptLimit.toNat ≤ { station (.waking cause held) with wakeAttempts := 5 }.wakeAttempts :=
  ⟨by simp [tset], by decide, by decide, one_station _, rfl, rfl, (by decide : 1 < (5#8).toNat), (by decide : (5#8).toNat ≤ 5)⟩

/-- A request in flight in a mode, with a timer and retries. -/
def flying (m : Mode) (timer : Option Nat) (retries : Nat) : State :=
  { State.reset with steer := { State.reset.steer with
      mode := m, link := .up, footing := true, ackTimer := timer, inFlight := some ⟨.clearAll, 15#4, retries⟩ } }

/-- No request; a timer not yet due, and due; retries below the limit of 3 and at it, in each mode. -/
theorem witness_MillisecondTime (m : Mode) : State.reset.steer.inFlight = none ∧ State.reset.steer.ackTimer = none ∧
    (∃ k, (flying m (some 20) 0).steer.ackTimer = some k ∧ 19 < k) ∧
    ((flying m (some 20) 2).steer.inFlight = some ⟨.clearAll, 15#4, 2⟩ ∧ (flying m (some 20) 2).steer.ackTimer = some 20 ∧ 20 ≤ 20) ∧
    2 < (flying m (some 20) 2).mport.settings.steerRetryLimit.toNat ∧ (flying m (some 20) 3).mport.settings.steerRetryLimit.toNat ≤ 3 ∧
    (flying m (some 0) 3).steer.mode = m ∧ (Instr.ageBoundary = .ageBoundary ∧ 1 = 1) :=
  ⟨rfl, rfl, ⟨20, rfl, by decide⟩, ⟨rfl, rfl, le_rfl⟩, (by decide : 2 < (3#8).toNat), (by decide : (3#8).toNat ≤ 3), rfl, rfl, rfl⟩

/-! Frames out -/

/-- A REPLY and a PROBE_REPLY job, for a record with an identifier and for one with none. -/
theorem witness_WireFormats : (∃ target, AnswerKind.reply 7#32 = .reply target) ∧ (station .awake).identifiers ≠ [] ∧
    ({ station .awake with identifiers := [] } : Station).identifiers = [] ∧
    (∃ r, RequestBody.station (request .restore) = .station r) ∧ decodeAnswer ackBytes = some (.ack 1#8) ∧
    decodeAnswer nakBytes = some (.nak 1#8 .unknown) :=
  ⟨⟨_, rfl⟩, by simp [station], rfl, ⟨_, rfl⟩, by decide, by decide⟩

/-- An answer job for the station. -/
def answerJob (k : AnswerKind) : AnswerJob :=
  { kind := k, slot := 3, address := home, sender := 0x02000000D001#48, senderIdentifier := 9#32, port := 7#5, segment := 10#12 }

/-- A job of each kind for a record of each state, and for one that is gone; a buffer free, none free; the
emission queue with a place and full; the names configured and not. -/
theorem witness_AnswerJobsResult (q : StationState) (k : AnswerKind) :
    let s : State := { one q with resp := { State.reset.resp with answerJobs := [answerJob k], ackJobs := [ackJobFor 3 (station q) .accepted 6#16 60#16] } }
    (s.resp.answerJobs = answerJob k :: [] ∧ s.resp.ackJobs = ackJobFor 3 (station q) .accepted 6#16 60#16 :: [] ∧
      s.station (answerJob k).slot = some (station q) ∧ (station q).address = (answerJob k).address ∧ (answerJob k).kind = k) ∧
    (∀ st, State.reset.station (answerJob k).slot = some st → st.address = (answerJob k).address →
      (∀ l, st.state ≠ .asleep l) ∧ ∀ cause held, st.state ≠ .waking cause held) ∧
    (∀ b : Fin 8, (Vector.replicate 8 (some [0#8]))[b.val] ≠ none) ∧
    (State.reset.resp.buffers[0] = none ∧ ∀ b < (0 : Fin 8), State.reset.resp.buffers[b.val] ≠ none) ∧
    (s.emit.size < 16 ∧ 16 ≤ ({ sending := none, waiting := List.replicate 16 ⟨.pass 0, 0#5, 0#12⟩ } : Emit).size) ∧
    (s.mport.settings.announceType = 0#16 ∧ (configured s).mport.settings.announceType ≠ 0#16 ∧
      (configured s).mport.settings.partAddress ≠ 0#48) :=
  ⟨⟨rfl, rfl, one_station q, rfl, rfl⟩, fun st h => (nomatch h : False).elim, by decide, by decide, ⟨(by decide : 0 < 16), by decide⟩,
    rfl, by show 0x9002#16 ≠ 0#16; decide, by show 0x02000000B001#48 ≠ 0#48; decide⟩

/-- An entry of each kind at the head with its resource; a WAKE entry with no record, and one without a
template; an entry SENDING. -/
theorem witness_TransmissionResult (x : Entry) (w : Transfer) (bytes : List Byte) (f : Frame) :
    (let e : Emit := { sending := none, waiting := [x] }
     e.sending = none ∧ e.waiting = x :: []) ∧
    ({ sending := some (x, w), waiting := [] } : Emit).sending = some (x, w) ∧
    (tset State.reset.resp.buffers (7 : Fin 8) (some bytes))[7] = some bytes ∧
    (tset State.reset.hold (15 : Fin 16) (.queued bytes))[15] = .queued bytes ∧
    (tset State.reset.icls.slots (3 : Fin 4) (.passing f))[3] = .passing f ∧
    ((one .awake).station 3 = some (station .awake) ∧ (station .awake).template = some (List.replicate 60 1#8) ∧
      ∀ st, State.reset.station 3 = some st → st.address = home → st.template = none) :=
  ⟨⟨rfl, rfl⟩, rfl, by simp [tset], by simp [tset], by simp [tset], one_station _, rfl, fun _ h => nomatch h⟩

/-! Steering -/

theorem witness_SteerSendResult (k : SteerKind) :
    (let t : Steer := { (inRunning State.reset).steer with queue := [request k] }
     t.queue = request k :: [] ∧ t.mode = .running ∧ t.link = .up ∧ t.inFlight = none) ∧
    State.reset.steer.queue = [] ∧ State.reset.steer.mode ≠ .running ∧ State.reset.steer.link ≠ .up ∧
    (flying .running none 0).steer.inFlight ≠ none :=
  ⟨⟨rfl, rfl, rfl, rfl⟩, rfl, by decide, by decide, by decide⟩

/-- A part with a request of sequence 1 in flight. -/
def asking (s : State) (b : RequestBody) : State :=
  { s with steer := { s.steer with mode := .running, link := .up, footing := true, inFlight := some ⟨b, 1#4, 0⟩, ackTimer := some 20 } }

theorem answers (s : State) (b : RequestBody) : (asking s b).AnswersRequest ⟨b, 1#4, 0⟩ 1#8 :=
  ⟨rfl, Mode.noConfusion, rfl, rfl⟩

theorem witness_DivertOutcome (q : StationState) :
    let s := asking (one q) (.station (request .divert))
    s.AnswersRequest ⟨.station (request .divert), 1#4, 0⟩ 1#8 ∧ (request .divert).kind = .divert ∧
    decodeAnswer ackBytes = some (.ack 1#8) ∧ decodeAnswer nakBytes = some (.nak 1#8 .unknown) ∧
    s.station (request .divert).slot = some (station q) :=
  ⟨answers _ _, rfl, by decide, by decide, one_station q⟩

theorem witness_RestoreOutcome (q : StationState) :
    let s := asking (one q) (.station (request .restore))
    s.AnswersRequest ⟨.station (request .restore), 1#4, 0⟩ 1#8 ∧ (request .restore).kind = .restore ∧
    decodeAnswer ackBytes = some (.ack 1#8) ∧ decodeAnswer nakBytes = some (.nak 1#8 .unknown) ∧
    s.station (request .restore).slot = some (station q) ∧ (station q).rules.Nodup :=
  ⟨answers _ _, rfl, by decide, by decide, one_station q, by simp [station]⟩

/-- A CLEAR_ALL answered; no request, no footing, a damaged message, another sequence. -/
theorem witness_ClearAllAndDiscarded (m : Mode) (h : m ≠ .stopped) :
    (flying m (some 20) 0).AnswersRequest ⟨.clearAll, 15#4, 0⟩ 15#8 ∧
    decodeAnswer ([8#8, 15#8] ++ List.replicate 13 0#8 ++ [232#8]) = some (.ack 15#8) ∧
    State.reset.steer.footing = false ∧ decodeAnswer (ackBytes.set 15 245#8) = none ∧
    (∀ f q, (flying m (some 20) 0).AnswersRequest f q → decodeAnswer ackBytes ≠ some (.ack q) ∧
      ∀ why, decodeAnswer ackBytes ≠ some (.nak q why)) := by
  refine ⟨⟨rfl, h, rfl, rfl⟩, by decide, rfl, by decide, fun f q hf => ?_⟩
  obtain ⟨-, -, hin, hq⟩ := hf
  cases hin
  subst hq
  rw [show decodeAnswer ackBytes = some (.ack 1#8) by decide]
  exact ⟨by decide, fun why => by simp⟩

/-! Notices -/

/-- A notice with the post's key; none with it and a place; a full queue whose newest least urgent notice
gives way, and one in which nothing is less urgent. -/
theorem witness_NoticePost :
    let p : Post := { kind := .wakeFailed, subject := some (3, 0#8), detail := .none }
    let same := notice .wakeFailed (some (3, 1#8))
    let low (i : Nat) := notice .answerDropped (some (BitVec.ofNat 6 i |>.toFin, 0#8))
    let queue := (List.range 32).map low
    (Nq.WellFormed { queue := [same], stamp := 0#16, overrun := false } ∧ same.kind = p.kind ∧ same.subject.map (·.1) = p.subject.map (·.1)) ∧
    (Nq.WellFormed State.reset.nq ∧ State.reset.nq.queue.length < 32) ∧
    (Nq.WellFormed { queue := queue, stamp := 0#16, overrun := false } ∧ queue.length = 32 ∧
      (∀ n ∈ queue, n.kind = p.kind → n.subject.map (·.1) ≠ p.subject.map (·.1)) ∧
      queue = queue.take 31 ++ low 31 :: [] ∧ (∀ m ∈ queue, (low 31).noticeClass.rank ≤ m.noticeClass.rank) ∧
      (low 31).noticeClass.rank < p.kind.noticeClass.rank) ∧
    ∀ m ∈ queue, NoticeKind.unknownAnnouncer.noticeClass.rank ≤ m.noticeClass.rank := by
  refine ⟨⟨⟨by decide, by decide, by decide⟩, by decide, by decide⟩, ⟨⟨by decide, by decide, by decide⟩, by decide⟩,
    ⟨⟨by decide, by decide, by decide⟩, by decide, by decide, by decide, by decide, by decide⟩, by decide⟩

/-! What every command keeps: a state in which each block holds something -/

theorem one_other (q : StationState) {i : Slot} (h : i ≠ 3) : (one q).station i = none := by
  rw [Option.eq_none_iff_forall_ne_some]
  exact fun st hst => h (one_only hst).1

theorem witness_NoticesKept :
    ({ State.reset with nq := { queue := [notice .wakeFailed (some (3, 0#8))], stamp := 1#16, overrun := true } } : State).nq.WellFormed :=
  ⟨by decide, by decide, by decide⟩

theorem witness_AnswersKept :
    AnswersMatch { sending := none, waiting := [⟨.answer 7, 3#5, 10#12⟩, ⟨.pass 0, 3#5, 10#12⟩] }
      (tset State.reset.resp.buffers (7 : Fin 8) (some [0#8])) :=
  ⟨by decide, by decide, by decide⟩

theorem witness_HeldBuffersKept :
    ({ one (.waking .command (some 3)) with
       hold := tset (tset State.reset.hold 3 (.reserved [])) 15 (.queued [])
       emit := { sending := none, waiting := [⟨.held 15, 3#5, 10#12⟩] } } : State).HoldMatches := by
  have h : ∀ i : Slot, (one (.waking .command (some 3))).heldBy i = if i = 3 then some 3 else none := by
    intro i
    split
    · next e => rw [e, State.heldBy, one_station]; rfl
    · next e => rw [State.heldBy, one_other _ e]; rfl
  refine ⟨by decide, by decide, fun b => ⟨fun hb => ⟨3, ?_⟩, ?_⟩, fun i k b hi hk => ?_⟩
  · show (one (.waking .command (some 3))).heldBy 3 = some b
    rw [h]
    revert b
    decide
  · rintro ⟨i, hi⟩
    replace hi : (one (.waking .command (some 3))).heldBy i = some b := hi
    rw [h] at hi
    split at hi
    · cases hi
      decide
    · exact nomatch hi
  · have hs : ∀ i, (one (.waking .command (some 3))).heldBy i = some b → i = 3 := by
      intro i hi
      by_contra e
      rw [h, if_neg e] at hi
      exact nomatch hi
    rw [hs i hi, hs k hk]

theorem witness_IntakeSlotsKept (f : Frame) :
    SlotsMatch { slots := #v[.unclassified f, .triggered f, .passing f, .arriving], arrivals := [0], current := none }
      [{ slot := 3, address := home, kind := .trigger (.rule 2) (some 1) }] { sending := none, waiting := [⟨.pass 2, 3#5, 10#12⟩] } := by
  refine ⟨List.nodup_singleton _, fun j => ?_, by simp [Presented.frame], fun j => ?_, by decide, fun j => ?_, fun j k => ?_⟩
  all_goals fin_cases j
  all_goals try fin_cases k
  all_goals simp [IntakeSlot.use, Presented.frame, Emit.passes, Emit.entries, Entry.passSlot]

theorem witness_WakingContextsKept :
    ({ one (.waking .command none) with wake := tset State.reset.wake 3 (some ⟨home, 10⟩) } : State).ContextsMatch := by
  unfold State.ContextsMatch
  decide

theorem witness_IdentifierMapKept (q : StationState) :
    ({ one q with idmap := [⟨0x0A000001#32, 10#12, 3, true⟩] } : State).MapMatches := by
  refine ⟨(by decide : 1 ≤ 256), List.nodup_singleton _, fun e => ⟨fun h => ?_, ?_⟩, fun i st h => ?_⟩
  · obtain rfl := List.mem_singleton.1 h
    exact ⟨station q, one_station q, rfl, by simp [station]⟩
  · rintro ⟨st, h, hs, hl⟩
    have h' := one_only (q := q) h
    rw [h'.2] at hs hl
    obtain ⟨id, segment, slot, flag⟩ := e
    simp only [station, List.mem_singleton, ListedIdentifier.mk.injEq] at hs hl
    simp [hl.1, hl.2, ← hs, show slot = 3 from h'.1]
  · rw [(one_only (q := q) h).2]
    exact List.nodup_singleton _

theorem witness_RuleCountsKept : (ruled (one .awake) 0#32).CountsMatch := by
  have hl : ∀ i n, (ruled (one .awake) 0#32).listsRule i n = decide (i = 3 ∧ n = 2) := by
    intro i n
    by_cases h : i = 3
    · subst h
      rw [State.listsRule, show (ruled (one .awake) 0#32).station 3 = some (station .awake) from one_station _]
      simp [station]
    · rw [State.listsRule, show (ruled (one .awake) 0#32).station i = none from one_other _ h]
      simp [h]
  refine ⟨fun n => ⟨?_, fun i h => ?_⟩, fun i st h => ?_⟩
  · simp only [hl]
    by_cases hn : n = 2
    · subst hn
      decide
    · have hv : n.val ≠ 2 := fun e => hn (Fin.ext e)
      simp [hn, ruled, tset, Ne.symm hv, one, State.setStation, State.reset]
  · rw [hl, decide_eq_true_iff] at h
    rw [h.2]
    rfl
  · rw [(one_only (q := .awake) h).2]
    exact List.nodup_singleton _

/-- An enrolled station, and a STATION_CREATE whose checks have passed. -/
theorem witness_AddressesKept (q : StationState) : (one q).AddressesUnique ∧
    ({ State.reset with cmde := { State.reset.cmde with
        engine := .busy (Memory.ofBytes (createBytes home 31#8 4095)) .checked } } : State).ChecksPassed := by
  refine ⟨one_unique rfl (by show 0#48 ≠ home; decide), fun c hc => ?_⟩
  cases hc
  exact ⟨fun _ => by decide, fun h => absurd h (by decide), fun h => absurd h (by decide)⟩

/-- An ASLEEP station with a template of 60 bytes and a DEFINED rule. -/
theorem witness_StationsKept : (ruled (one (.asleep (some ⟨1#16, false⟩))) 0#32).StationsWellFormed ∧
    (ruled (one (.asleep (some ⟨1#16, false⟩))) 0#32).RulesValid ∧ (ruled (one .awake) 0#32).ChecksPassed := by
  refine ⟨⟨reset_in_range, fun i st h => ?_⟩, fun n b h => ?_, fun c hc => nomatch hc⟩
  · rw [(one_only (q := .asleep (some ⟨1#16, false⟩)) h).2]
    refine ⟨by decide, by decide, fun _ => rfl, fun bytes hb => ?_, fun l hl => ?_, by decide⟩
    · obtain rfl : List.replicate 60 1#8 = bytes := by simpa [station] using hb
      decide
    · obtain rfl : 1#16 = l := by simpa [station, StationState.leaseRemaining] using hl
      decide
  · by_cases hn : n = 2
    · subst hn
      obtain rfl : (⟨.any, [⟨12, 1⟩], 0#32⟩ : RuleBody) = b := by simpa [ruled, tset] using h
      exact ⟨by decide, by decide, by decide, by decide, by decide⟩
    · have hv : n.val ≠ 2 := fun e => hn (Fin.ext e)
      simp [ruled, tset, Ne.symm hv, one, State.setStation, State.reset] at h

/-- An ENTERING record with its DIVERT unsent. -/
theorem witness_SteeringKept :
    ({ one (.entering (.commanded 0#16)) with
       steer := { (inRunning State.reset).steer with queue := [request .divert] } } : State).SteeringMatches := by
  refine ⟨⟨by decide, by decide, by decide, fun f hf => nomatch hf⟩, fun h => absurd rfl h, fun i => ?_, fun r hr => ?_, fun r hr => nomatch hr⟩
  · by_cases h : i = 3
    · subst h
      exact .inl ⟨rfl, rfl⟩
    · show requestsFit (((one (.entering (.commanded 0#16))).station i).map (·.state)) _ _
      rw [one_other _ h]
      exact ⟨by simp [Steer.unsent, request, Ne.symm h], rfl⟩
  · obtain rfl := List.mem_singleton.1 hr
    exact ⟨_, one_station _, rfl, rfl, rfl⟩

theorem witness_AreasKept : (latching State.reset [1#8, 0#8, 2#8]).AreasFit :=
  ⟨⟨by decide, by decide⟩, ⟨by decide, by decide⟩, by decide, by decide⟩

end Sys2Proof.Tests
end

section
/-! PROOF. STATION_FIND (R20, R182). -/

namespace Sys2Proof.Machine

/-! ### A completion leaves what is not CMDE's -/

theorem State.completes_complete (s : State) (c : Memory) (r : Reply) :
    s.Completes (s.complete c r).drivePins c r.code r.data := rfl

/-- R169: writing the result record touches CMDE alone; the pins follow their conditions. -/
theorem State.complete_frame (s : State) (c : Memory) (r : Reply) :
    ({ (s.complete c r).drivePins with cmde := s.cmde } : State).withPinsOf s = s := rfl

/-! ### The search for an address -/

/-- R20: the event of STATION_FIND only reads. -/
theorem findEvent_state (s : State) (c : Memory) : (findEvent s c).1 = s := by
  unfold findEvent
  split
  · rfl
  · rfl

theorem findEvent_found {s : State} {c : Memory} {i : Slot} {st : Station} (hu : s.AddressesUnique)
    (hs : s.station i = some st) (ha : st.address = addressArgument c) :
    (findEvent s c).2 = { code := .ok, data := handleData i (s.generation i) } := by
  unfold findEvent
  rw [State.findAddress_eq_some hu hs ha]

theorem findEvent_notFound {s : State} {c : Memory}
    (h : ∀ i st, s.station i = some st → st.address ≠ addressArgument c) : (findEvent s c).2 = reply .notFound := by
  unfold findEvent
  rw [State.findAddress_eq_none h]

/-- STATION_FIND has no check at CMDE, so no mode and no address refuses it: the search alone decides. -/
theorem State.Latched.stationFind {s : State} {c : Memory} (h : s.Latched 0x0D#8 c) :
    exec (.stationFind .completion) s = .next (s.complete c (findEvent s c).2).drivePins := by
  have hrow := h.runRow (accepts := (· = 0x0D#8)) (checks := noChecks) (event := findEvent) (by decide)
  simp only [noChecks, findEvent_state] at hrow
  exact hrow

/-- Settles O20: the search finds the one record with the address (R4), or none has it; either way the
completion is all that happens. -/
theorem stationFindResult : Obligations.StationFindResult := by
  unfold Obligations.StationFindResult
  intro s c hlatched hunique
  refine ⟨_, hlatched.stationFind, fun hnone => ?notFound, fun i st hst haddr => ?found⟩
  case notFound =>
    rw [findEvent_notFound hnone]
    exact s.refuses_complete c .notFound
  case found =>
    rw [findEvent_found hunique hst haddr]
    exact ⟨s.completes_complete c _, s.complete_frame c _⟩

end Sys2Proof.Machine
end

section
/-! PROOF. The reference counts of the wake rules (R66): the counts agree with the rule lists, and every command keeps it. -/

namespace Sys2Proof.Machine

/-! ### The rule lists of the Station Table -/

/-- The rule list of every slot; that of a VACANT record is empty. -/
def ruleLists (stab : Vector Record 64) (i : Slot) : List RuleNumber := (stab[i.val].station.map (·.rules)).getD []

theorem ruleLists_of_station {s : State} {i : Slot} {st : Station} (h : s.station i = some st) :
    ruleLists s.stab i = st.rules := by
  have hst : s.stab[i.val].station = some st := h
  simp [ruleLists, hst]

theorem ruleLists_of_vacant {s : State} {i : Slot} (h : s.station i = none) : ruleLists s.stab i = [] := by
  have hst : s.stab[i.val].station = none := h
  simp [ruleLists, hst]

theorem State.listsRule_eq (s : State) (i : Slot) (n : RuleNumber) :
    s.listsRule i n = decide (n ∈ ruleLists s.stab i) := by
  unfold State.listsRule
  cases h : s.station i with
  | none => simp [ruleLists_of_vacant h]
  | some st => simp [ruleLists_of_station h]

theorem ruleLists_tset (v : Vector Record 64) (i : Slot) (r : Record) :
    ruleLists (tset v i r) = Function.update (ruleLists v) i ((r.station.map (·.rules)).getD []) := by
  funext j
  by_cases h : j = i
  · subst h; simp [ruleLists]
  · simp [ruleLists, tset_get_ne v r (Ne.symm h), h]

/-- Replacing a record by one with the same rule list changes no list. -/
theorem ruleLists_tset_same {v : Vector Record 64} {i : Slot} {r : Record}
    (h : (r.station.map (·.rules)).getD [] = ruleLists v i) : ruleLists (tset v i r) = ruleLists v := by
  rw [ruleLists_tset, h, Function.update_eq_self]

theorem ruleLists_tmap {f : Record → Record} (h : ∀ r, (f r).station.map (·.rules) = r.station.map (·.rules))
    (v : Vector Record 64) : ruleLists (tmap f v) = ruleLists v := by
  funext i
  simp [ruleLists, h]

/-! ### Counts that agree with lists (R66) -/

/-- The number of slots whose list holds a rule. -/
def timesListed (lists : Slot → List RuleNumber) (n : RuleNumber) : Nat :=
  (List.finRange 64).countP fun i => decide (n ∈ lists i)

/-- R6, R66, over the rule lists alone: every count is the number of lists that hold the rule, a listed rule is
DEFINED, and no list holds a rule twice. -/
structure CountsAgree (rules : Vector Rule 96) (lists : Slot → List RuleNumber) : Prop where
  count : ∀ n : RuleNumber, rules[n.val].refCount = timesListed lists n
  defined : ∀ (n : RuleNumber) (i : Slot), n ∈ lists i → rules[n.val].body.isSome = true
  nodup : ∀ i, (lists i).Nodup

theorem State.countsMatch_iff (s : State) : s.CountsMatch ↔ CountsAgree s.rstore (ruleLists s.stab) := by
  have hnodup : (∀ i st, s.station i = some st → st.rules.Nodup) ↔ ∀ i, (ruleLists s.stab i).Nodup := by
    refine forall_congr' fun i => ?_
    cases h : s.station i with
    | none => simp [ruleLists_of_vacant h]
    | some st => simp [ruleLists_of_station h]
  unfold State.CountsMatch
  rw [hnodup]
  simp only [State.listsRule_eq, decide_eq_true_eq, ← List.countP_eq_length_filter]
  exact ⟨fun ⟨h, hn⟩ => ⟨fun n => (h n).1, fun n => (h n).2, hn⟩,
    fun ⟨hcount, hdefined, hn⟩ => ⟨fun n => ⟨hcount n, hdefined n⟩, hn⟩⟩

/-- A state with the same rules and the same rule lists. -/
theorem State.CountsMatch.congr {s t : State} (h : s.CountsMatch) (hr : t.rstore = s.rstore)
    (hl : ruleLists t.stab = ruleLists s.stab) : t.CountsMatch := by
  rw [State.countsMatch_iff] at h ⊢
  rwa [hr, hl]

/-! ### One list changes -/

/-- Replacing the list of one slot moves a rule's number of listings by that slot alone. -/
theorem timesListed_update (lists : Slot → List RuleNumber) (i : Slot) (l : List RuleNumber) (n : RuleNumber) :
    timesListed (Function.update lists i l) n + (if n ∈ lists i then 1 else 0) =
      timesListed lists n + (if n ∈ l then 1 else 0) := by
  have hperm := List.perm_cons_erase (List.mem_finRange i)
  have hrest : ((List.finRange 64).erase i).countP (fun j => decide (n ∈ Function.update lists i l j)) =
      ((List.finRange 64).erase i).countP fun j => decide (n ∈ lists j) := by
    refine List.countP_congr fun j hj => ?_
    have hji : j ≠ i := ((List.nodup_finRange 64).mem_erase_iff.mp hj).1
    simp [hji]
  unfold timesListed
  rw [hperm.countP_eq, hperm.countP_eq, List.countP_cons, List.countP_cons, hrest]
  simp only [Function.update_self, decide_eq_true_eq]
  omega

/-- A listed rule has a count of at least 1. -/
theorem CountsAgree.one_le {rules : Vector Rule 96} {lists : Slot → List RuleNumber} (h : CountsAgree rules lists)
    {i : Slot} {n : RuleNumber} (hn : n ∈ lists i) : 1 ≤ rules[n.val].refCount := by
  rw [h.count n]
  exact List.countP_pos_iff.mpr ⟨i, List.mem_finRange i, by simpa using hn⟩

/-- The list of one slot is replaced and every count moves with it, while no rule is freed: the counts agree
still. -/
theorem CountsAgree.update {rules rules' : Vector Rule 96} {lists : Slot → List RuleNumber} (h : CountsAgree rules lists)
    {i : Slot} {l : List RuleNumber} (hl : l.Nodup)
    (hbody : ∀ n : RuleNumber, rules'[n.val].body = rules[n.val].body)
    (hdefined : ∀ n ∈ l, rules[n.val].body.isSome = true)
    (hcount : ∀ n : RuleNumber, rules'[n.val].refCount + (if n ∈ lists i then 1 else 0) =
      rules[n.val].refCount + (if n ∈ l then 1 else 0)) :
    CountsAgree rules' (Function.update lists i l) where
  count n := by
    have hlisted := timesListed_update lists i l n
    have hmoved := hcount n
    have hbefore := h.count n
    omega
  defined n j hn := by
    rw [hbody]
    by_cases hj : j = i
    · subst hj
      exact hdefined n (by simpa using hn)
    · exact h.defined n j (by simpa [hj] using hn)
  nodup j := by
    by_cases hj : j = i
    · subst hj
      simpa using hl
    · simpa [hj] using h.nodup j

theorem updateCount_get (rules : Vector Rule 96) (n m : RuleNumber) (f : Nat → Nat) :
    (updateCount rules n f)[m.val] =
      { rules[m.val] with refCount := if n = m then f rules[m.val].refCount else rules[m.val].refCount } := by
  unfold updateCount
  rw [tset_get]
  split
  · next h => subst h; rfl
  · rfl

/-- R72: the rule joins the list and its count is raised. -/
theorem CountsAgree.attach {rules : Vector Rule 96} {lists : Slot → List RuleNumber} (h : CountsAgree rules lists)
    {i : Slot} {n : RuleNumber} (hfree : n ∉ lists i) (hdefined : rules[n.val].body.isSome = true) :
    CountsAgree (updateCount rules n (· + 1)) (Function.update lists i (lists i ++ [n])) := by
  refine h.update ?nodup (fun m => by rw [updateCount_get]) ?defined fun m => ?count
  case nodup => exact List.concat_eq_append ▸ (h.nodup i).concat hfree
  case defined =>
    intro m hm
    rcases List.mem_append.mp hm with hm | hm
    · exact h.defined m i hm
    · rwa [List.mem_singleton.mp hm]
  case count =>
    rw [updateCount_get]
    by_cases hm : n = m
    · subst hm; simp [hfree]
    · simp [hm, Ne.symm hm]

/-- R73: the rule leaves the list and its count is lowered. -/
theorem CountsAgree.detach {rules : Vector Rule 96} {lists : Slot → List RuleNumber} (h : CountsAgree rules lists)
    {i : Slot} {n : RuleNumber} (hlisted : n ∈ lists i) :
    CountsAgree (updateCount rules n (· - 1)) (Function.update lists i ((lists i).erase n)) := by
  refine h.update ((h.nodup i).erase n) (fun m => by rw [updateCount_get])
    (fun m hm => h.defined m i (List.mem_of_mem_erase hm)) fun m => ?_
  rw [updateCount_get]
  by_cases hm : n = m
  · subst hm
    have hpos := h.one_le hlisted
    simp only [if_true, hlisted, (h.nodup i).not_mem_erase, if_false]
    omega
  · simp [hm, List.mem_erase_of_ne (Ne.symm hm)]

/-- R23, R66: at a vacancy the list is emptied and the count of each of its rules lowered. -/
theorem CountsAgree.vacate {rules : Vector Rule 96} {lists : Slot → List RuleNumber} (h : CountsAgree rules lists)
    (i : Slot) : CountsAgree (lowerCounts rules (lists i)) (Function.update lists i []) := by
  refine h.update List.nodup_nil (fun m => by rw [lowerCounts_get _ _ (h.nodup i)]) (fun m hm => nomatch hm) fun m => ?_
  rw [lowerCounts_get _ _ (h.nodup i)]
  by_cases hm : m ∈ lists i
  · have hpos := h.one_le hm
    simp only [hm, if_true, List.not_mem_nil, if_false]
    omega
  · simp [hm]

/-! ### One rule changes -/

/-- R69, R70: a rule that no record lists is replaced by one with count 0. -/
theorem CountsAgree.replace {rules : Vector Rule 96} {lists : Slot → List RuleNumber} (h : CountsAgree rules lists)
    {n : RuleNumber} {r : Rule} (hfree : ∀ i, n ∉ lists i) (hr : r.refCount = 0) : CountsAgree (tset rules n r) lists where
  count m := by
    by_cases hm : n = m
    · subst hm
      rw [tset_get_self, hr]
      exact (List.countP_eq_zero.mpr fun i _ => by simpa using hfree i).symm
    · rw [tset_get_ne _ _ hm, h.count]
  defined m i hmi := by
    have hm : n ≠ m := fun e => hfree i (e ▸ hmi)
    rw [tset_get_ne _ _ hm]
    exact h.defined m i hmi
  nodup := h.nodup

/-- A reset: no record lists a rule, and every count is 0. -/
theorem CountsAgree.reset : CountsAgree (Vector.replicate 96 { refCount := 0, body := none }) fun _ => [] where
  count n := by simp [timesListed]
  defined n i h := nomatch h
  nodup _ := List.nodup_nil

end Sys2Proof.Machine
end

section
/-! PROOF. The operations on records and the rule lists (R66): those that leave every list, and the vacancy. -/

namespace Sys2Proof.Machine

/-! ### Changes of one station that leave its rule list -/

theorem ruleLists_setStation {s : State} {i : Slot} {st st' : Station} (hst : s.station i = some st)
    (hr : st'.rules = st.rules) : ruleLists (s.setStation i st').stab = ruleLists s.stab :=
  ruleLists_tset_same (hr.trans (ruleLists_of_station hst).symm)

theorem ruleLists_updateStation (s : State) (i : Slot) {f : Station → Station} (hf : ∀ st, (f st).rules = st.rules) :
    ruleLists (s.updateStation i f).stab = ruleLists s.stab := by
  cases hst : s.station i with
  | none => simp [State.updateStation, hst]
  | some st => rw [State.updateStation_eq f hst, ruleLists_setStation hst (hf st)]

@[simp] theorem ruleLists_setStationState (s : State) (i : Slot) (q : StationState) :
    ruleLists (s.setStationState i q).stab = ruleLists s.stab :=
  ruleLists_updateStation s i fun _ => rfl

@[simp] theorem ruleLists_raiseShed (s : State) (i : Slot) : ruleLists (s.raiseShed i).stab = ruleLists s.stab :=
  ruleLists_updateStation s i fun _ => rfl

@[simp] theorem ruleLists_attempt (s : State) (i : Slot) (st : Station) (a : Address) :
    ruleLists (s.attempt i st a).stab = ruleLists s.stab := by
  unfold State.attempt
  split
  · exact ruleLists_updateStation _ i fun _ => rfl
  · rfl

@[simp] theorem ruleLists_decideAck (s : State) (i : Slot) (c : AckCode) (g q : Half) :
    ruleLists (s.decideAck i c g q).stab = ruleLists s.stab := by
  unfold State.decideAck
  split
  · next st hst => exact ruleLists_setStation hst rfl
  · rfl

@[simp] theorem ruleLists_passSeconds (s : State) (n : Nat) :
    ruleLists (s.passSeconds n).stab = ruleLists s.stab :=
  ruleLists_tmap (fun r => by cases h : r.station <;> simp [Record.passSeconds, h]) s.stab

/-! ### The events of Station States that vacate no record -/

@[simp] theorem ruleLists_releaseHeld (s : State) (i : Slot) (st : Station) (held : Option (Fin 16)) :
    ruleLists (s.releaseHeld i st held).stab = ruleLists s.stab := by
  unfold State.releaseHeld
  split
  · rfl
  · split <;> simp

@[simp] theorem ruleLists_confirmWaking (s : State) (i : Slot) (st : Station) (c : WakeCause) (held : Option (Fin 16)) :
    ruleLists (s.confirmWaking i st c held).stab = ruleLists s.stab := by
  simp [State.confirmWaking]

@[simp] theorem ruleLists_confirmEntering (s : State) (i : Slot) (st : Station) :
    ruleLists (s.confirmEntering i st).stab = ruleLists s.stab := by
  unfold State.confirmEntering
  split <;> simp

@[simp] theorem ruleLists_confirmAwake (s : State) (i : Slot) :
    ruleLists (s.confirmAwake i).stab = ruleLists s.stab := by
  unfold State.confirmAwake
  split
  · rfl
  · split <;> simp

@[simp] theorem ruleLists_enterSleep (s : State) (i : Slot) (st : Station) (o : SleepOrigin) :
    ruleLists (s.enterSleep i st o).stab = ruleLists s.stab := by
  simp [State.enterSleep]

@[simp] theorem ruleLists_sleepFromAwake (s : State) (i : Slot) (st : Station) (q l : Half) :
    ruleLists (s.sleepFromAwake i st q l).stab = ruleLists s.stab := by
  unfold State.sleepFromAwake
  split <;> simp

@[simp] theorem ruleLists_sleepAnnounced (s : State) (i : Slot) (q l : Half) :
    ruleLists (s.sleepAnnounced i q l).stab = ruleLists s.stab := by
  unfold State.sleepAnnounced
  split
  · rfl
  · split <;> simp

@[simp] theorem ruleLists_sleepCommanded (s : State) (i : Slot) (st : Station) (l : Half) :
    ruleLists (s.sleepCommanded i st l).1.stab = ruleLists s.stab := by
  unfold State.sleepCommanded
  split
  · split <;> simp
  · split <;> simp
  all_goals simp

@[simp] theorem ruleLists_divertAck (s : State) (i : Slot) : ruleLists (s.divertAck i).stab = ruleLists s.stab := by
  unfold State.divertAck
  split
  · rfl
  · split
    · next o _ => cases o <;> simp
    all_goals rfl

@[simp] theorem ruleLists_divertNak (s : State) (i : Slot) (r : NakReason) :
    ruleLists (s.divertNak i r).stab = ruleLists s.stab := by
  unfold State.divertNak
  split
  · rfl
  · split
    · next o _ => cases o <;> simp
    · simp
    all_goals rfl

@[simp] theorem ruleLists_holdFrame (s : State) (i : Slot) (c : WakeCause) (b : List Byte) :
    ruleLists (s.holdFrame i c b).stab = ruleLists s.stab := by
  unfold State.holdFrame
  split
  · simp
  · split <;> simp

@[simp] theorem ruleLists_exhaustWaking (s : State) (i : Slot) :
    ruleLists (s.exhaustWaking i).stab = ruleLists s.stab := by
  unfold State.exhaustWaking
  split
  · rfl
  · split <;> simp

@[simp] theorem ruleLists_passOrShed (s : State) (i : Slot) (st : Station) (j : Fin 4) (f : Frame) :
    ruleLists (s.passOrShed i st j f).stab = ruleLists s.stab := by
  unfold State.passOrShed
  split
  · next t ht => obtain ⟨-, rfl⟩ := State.passThrough_some ht; rfl
  · simp

@[simp] theorem ruleLists_takeInterval (s : State) (i : Slot) (a : Address) :
    ruleLists (s.takeInterval i a).stab = ruleLists s.stab := by
  unfold State.takeInterval
  split
  · simp
  · split <;> simp

@[simp] theorem ruleLists_expireInterval (s : State) (i : Slot) :
    ruleLists (s.expireInterval i).stab = ruleLists s.stab := by
  unfold State.expireInterval
  split
  · split <;> simp
  · rfl

@[simp] theorem ruleLists_answer (s : State) (job : AnswerJob) : ruleLists (s.answer job).stab = ruleLists s.stab := by
  unfold State.answer
  split
  · rfl
  · split
    · rfl
    · split
      · simp
      · next t ht =>
        obtain ⟨b, -, -, rfl⟩ := State.claimAnswer_ok ht
        exact ruleLists_updateStation _ _ fun _ => rfl

/-! ### The events that write the whole record: it is the one that stands in the slot -/

theorem ruleLists_wakeUp {s : State} {i : Slot} {st : Station} (hst : s.station i = some st) (c : WakeCause) :
    ruleLists (s.wakeUp i st c).stab = ruleLists s.stab := by
  rw [State.wakeUp_eq]
  exact ruleLists_setStation hst rfl

theorem ruleLists_wakeCommanded {s : State} {i : Slot} {st : Station} (hst : s.station i = some st) :
    ruleLists (s.wakeCommanded i st).1.stab = ruleLists s.stab := by
  unfold State.wakeCommanded
  split
  · exact ruleLists_wakeUp hst _
  all_goals rfl

theorem ruleLists_iclsTrigger {s : State} {i : Slot} {st : Station} (hst : s.station i = some st) (c : WakeCause)
    (frame : Option (Fin 4)) : ruleLists (s.iclsTrigger i st c frame).stab = ruleLists s.stab := by
  unfold State.iclsTrigger
  split
  · exact ruleLists_wakeUp hst c
  · simp [ruleLists_wakeUp hst]
  · rfl
  · simp
  · rfl
  · split <;> simp

theorem ruleLists_expireLease (s : State) (i : Slot) : ruleLists (s.expireLease i).stab = ruleLists s.stab := by
  unfold State.expireLease
  split
  · next st hst =>
    split
    · exact ruleLists_wakeUp hst _
    · rfl
  · rfl

theorem ruleLists_takeAnnouncement {s : State} {i : Slot} {st : Station} (hst : s.station i = some st) (o : AnnounceOp)
    (q l : Half) : ruleLists (s.takeAnnouncement i st o q l).stab = ruleLists s.stab := by
  have hset : ruleLists (s.setStation i { st with lastSequence := some q }).stab = ruleLists s.stab :=
    ruleLists_setStation hst rfl
  unfold State.takeAnnouncement
  split
  · rfl
  · simp
  · cases o with
    | sleep => rw [ruleLists_sleepAnnounced, hset]
    | awake => rw [ruleLists_confirmAwake, hset]

/-! ### The vacancy, and the events that may bring one (R23) -/

theorem State.CountsMatch.vacate {s : State} (h : s.CountsMatch) {i : Slot} {st : Station} (hst : s.station i = some st) :
    (s.vacate i st).CountsMatch := by
  rw [State.countsMatch_iff] at h ⊢
  rw [State.vacate_rstore, State.vacate_stab, ruleLists_tset, ← ruleLists_of_station hst]
  exact h.vacate i

theorem State.CountsMatch.restoreOutcome {s : State} (h : s.CountsMatch) (i : Slot) :
    (s.restoreOutcome i).CountsMatch := by
  unfold State.restoreOutcome
  split
  · exact h
  · next st hst =>
    split
    · exact h.congr (by simp) (by simp)
    · exact h.congr (by simp) (by simp)
    · exact h.vacate hst
    all_goals exact h

theorem State.CountsMatch.retire {s : State} (h : s.CountsMatch) {i : Slot} {st : Station} (hst : s.station i = some st) :
    (s.retire i st).1.CountsMatch := by
  unfold State.retire
  split
  · exact h.vacate hst
  · exact h.vacate hst
  · exact h.congr (by simp) (by simp)
  · exact h.congr (by simp) (by simp)
  all_goals exact h

theorem State.CountsMatch.teardownAt {s : State} (h : s.CountsMatch) (i : Slot) : (s.teardownAt i).CountsMatch := by
  unfold State.teardownAt
  split
  · exact h
  · next st hst =>
    split
    case h_6 => exact h.vacate hst -- a RETIRING record
    all_goals exact h.congr (by simp) (by simp)

theorem State.CountsMatch.teardown {s : State} (h : s.CountsMatch) : s.teardown.CountsMatch := by
  unfold State.teardown
  generalize List.finRange 64 = slots
  induction slots generalizing s with
  | nil => exact h
  | cons i rest ih => exact ih (h.teardownAt i)

theorem State.CountsMatch.beginStop {s : State} (h : s.CountsMatch) : s.beginStop.CountsMatch := by
  have ht : ({ s with steer := { s.steer with
      mode := .stopping, queue := [], inFlight := none, ackTimer := none } } : State).teardown.CountsMatch :=
    State.CountsMatch.teardown (h.congr rfl rfl)
  exact ht.congr (by simp [State.beginStop]) (by simp [State.beginStop])

theorem State.CountsMatch.takeRunCleared {s : State} (h : s.CountsMatch) : s.takeRunCleared.CountsMatch := by
  unfold State.takeRunCleared
  split
  · exact h.congr rfl rfl
  · exact h.congr rfl rfl
  · exact h.beginStop
  · exact h

theorem State.CountsMatch.stationOutcome {s : State} (h : s.CountsMatch) (r : SteerRequest) (v : Verdict) :
    (s.stationOutcome r v).CountsMatch := by
  have ht : ({ s with steer := s.steer.resolve r v } : State).CountsMatch := h.congr rfl rfl
  unfold State.stationOutcome
  split
  · exact ht.congr (by simp) (by simp)
  · exact ht.congr (by simp) (by simp)
  · exact ht.restoreOutcome r.slot
  · exact (ht.restoreOutcome r.slot).congr rfl rfl

theorem State.CountsMatch.takeAnswer {s : State} (h : s.CountsMatch) (q : Byte) (v : Verdict) :
    (s.takeAnswer q v).CountsMatch := by
  unfold State.takeAnswer
  split
  · exact h
  · split
    · exact h.congr (by simp) (by simp)
    · exact h.stationOutcome _ v

end Sys2Proof.Machine
end

section
/-! PROOF. Every command keeps the reference counts (R66): the rows one after another, in the order of the table. -/

namespace Sys2Proof.Machine

theorem State.CountsMatch.drivePins {s : State} (h : s.CountsMatch) : s.drivePins.CountsMatch := h.congr rfl rfl

theorem State.CountsMatch.of_settle {s t : State} (h : s.CountsMatch) (ht : settle s = .next t) : t.CountsMatch := by
  rw [settle_next.mp ht]
  exact h.drivePins

/-- A command that settles in a state with the same rules and the same rule lists. -/
theorem countsMatch_of_settle_congr {s u t : State} (ht : settle u = .next t) (h : s.CountsMatch)
    (hr : u.rstore = s.rstore) (hl : ruleLists u.stab = ruleLists s.stab) : t.CountsMatch :=
  (h.congr hr hl).of_settle ht

/-! ### Resets and the SPI port -/

theorem State.CountsMatch.hardReset (s : State) : s.hardReset.CountsMatch := by
  rw [State.countsMatch_iff]
  have hlists : ruleLists s.hardReset.stab = fun _ => [] := by
    funext i
    simp [ruleLists, State.hardReset, State.reset]
  rw [hlists]
  exact CountsAgree.reset

theorem State.CountsMatch.softReset (s : State) : s.softReset.CountsMatch := by
  rw [State.countsMatch_iff]
  have hlists : ruleLists s.softReset.stab = fun _ => [] := by
    funext i
    simp [ruleLists, State.softReset, Record.softReset]
  rw [hlists]
  exact CountsAgree.reset

theorem State.CountsMatch.writeEvent {s : State} (h : s.CountsMatch) (addr : Half) (data : List Byte) :
    (s.writeEvent addr data).CountsMatch :=
  h.congr (by simp) (by simp)

theorem State.CountsMatch.raiseNcs {s : State} (h : s.CountsMatch) (more : List Byte) : (s.raiseNcs more).CountsMatch :=
  State.raiseNcs_keeps (fun _ _ hu => hu.congr rfl rfl) (fun _ addr data hu => hu.writeEvent addr data) h more

theorem State.CountsMatch.beginTransaction {s : State} (h : s.CountsMatch) : s.beginTransaction.CountsMatch :=
  State.beginTransaction_keeps (fun _ _ hu => hu.congr rfl rfl) (fun _ addr data hu => hu.writeEvent addr data)
    (fun u _ => State.CountsMatch.softReset u) h

theorem State.CountsMatch.unlessIssued {s : State} (h : s.CountsMatch) (issued : Bool) :
    (s.unlessIssued issued).CountsMatch := by
  cases issued
  · exact h.beginTransaction
  · exact h

theorem State.CountsMatch.readTake {s : State} (h : s.CountsMatch) (first : Nat) : (s.readTake first).CountsMatch := by
  unfold State.readTake
  split
  · exact h.congr rfl rfl
  · exact h.congr rfl rfl

theorem State.CountsMatch.runSet {s : State} (h : s.CountsMatch) : s.runSet.CountsMatch := by
  unfold State.runSet
  split
  · exact h.congr (by simp) (by simp)
  · exact h
  · split
    · exact h
    · exact h.congr (by simp) (by simp)

theorem State.CountsMatch.runCleared {s : State} (h : s.CountsMatch) : s.runCleared.CountsMatch := by
  unfold State.runCleared
  split
  · exact State.CountsMatch.takeRunCleared (h.congr rfl rfl)
  · exact h
  · split
    · exact State.CountsMatch.takeRunCleared (h.congr rfl rfl)
    · exact h

theorem State.CountsMatch.clearRow {s : State} (h : s.CountsMatch) (f : StickyFlag) : (s.clearRow f).CountsMatch :=
  (h.unlessIssued (decide (PortEvent.clear f ∈ s.mport.issued))).congr (by simp [State.clearRow])
    (by simp [State.clearRow])

theorem execRegisterWrite_countsMatch {s t : State} (h : s.CountsMatch) (part : WritePart) (data : List Byte)
    (ht : execRegisterWrite part data s = .next t) : t.CountsMatch := by
  cases part with
  | start addr => exact countsMatch_of_settle_congr ht h.beginTransaction (by simp) (by simp)
  | whole addr => exact (h.beginTransaction.writeEvent addr data).of_settle ht
  | finish =>
    unfold execRegisterWrite at ht
    cases hspi : s.mport.spi with
    | none => exact h.of_settle (by simpa [hspi] using ht)
    | some x =>
      cases x with
      | read => exact h.of_settle (by simpa [hspi] using ht)
      | write addr before => exact (h.raiseNcs data).of_settle (by simpa [hspi] using ht)

theorem execTake_countsMatch {s t : State} (h : s.CountsMatch) (part : ReadPart) (ht : execTake part s = .next t) :
    t.CountsMatch := by
  cases part with
  | start first =>
    exact countsMatch_of_settle_congr ht (h.beginTransaction.readTake first) (by simp) (by simp)
  | whole first => exact (h.beginTransaction.readTake first).of_settle ht
  | finish =>
    unfold execTake at ht
    cases hspi : s.mport.spi with
    | none => exact h.of_settle (by simpa [hspi] using ht)
    | some x =>
      cases x with
      | read => exact (h.raiseNcs []).of_settle (by simpa [hspi] using ht)
      | write addr before => exact h.of_settle (by simpa [hspi] using ht)

/-! ### The events of management commands -/

/-- What an event keeps, its row keeps: checks, progress and completion are CMDE's alone. -/
theorem runRow_countsMatch {accepts : Byte → Bool} {checks : Checks} {event : Event} {upTo : CommandStage} {s t : State}
    (h : s.CountsMatch) (hevent : ∀ c, (event s c).1.CountsMatch) (ht : runRow accepts checks event upTo s = .next t) :
    t.CountsMatch :=
  runRow_keeps (P := State.CountsMatch) (fun _ hu => hu.drivePins) (fun _ _ _ hu => hu.congr rfl rfl)
    (fun _ _ _ hu => hu.congr rfl rfl) hevent h ht

theorem State.CountsMatch.setStation {s : State} (h : s.CountsMatch) {i : Slot} {st st' : Station}
    (hst : s.station i = some st) (hr : st'.rules = st.rules) : (s.setStation i st').CountsMatch :=
  h.congr rfl (ruleLists_setStation hst hr)

/-- R14: a record is enrolled in a VACANT slot, with an empty rule list. -/
theorem createEvent_countsMatch {s : State} (h : s.CountsMatch) (c : Memory) : (createEvent s c).1.CountsMatch := by
  unfold createEvent
  split
  · exact h
  · split
    · exact h
    · split
      · exact h
      · next i hi =>
        have hvacant : s.station i = none := Option.isNone_iff_eq_none.mp (lowest_some hi).1
        exact h.congr rfl (ruleLists_tset_same (ruleLists_of_vacant hvacant).symm)

theorem setTemplateEvent_countsMatch {s : State} (h : s.CountsMatch) (c : Memory) :
    (setTemplateEvent s c).1.CountsMatch :=
  withHandle_keeps h fun _ _ hst _ => guarded_keeps h fun _ => h.setStation hst rfl

theorem clearTemplateEvent_countsMatch {s : State} (h : s.CountsMatch) (c : Memory) :
    (clearTemplateEvent s c).1.CountsMatch :=
  withHandle_keeps h fun _ _ hst _ => guarded_keeps h fun _ => h.setStation hst rfl

theorem addIdentifierEvent_countsMatch {s : State} (h : s.CountsMatch) (c : Memory) :
    (addIdentifierEvent s c).1.CountsMatch :=
  withHandle_keeps h fun _ _ hst _ => guarded_keeps h fun _ => h.congr rfl (ruleLists_setStation hst rfl)

theorem removeIdentifierEvent_countsMatch {s : State} (h : s.CountsMatch) (c : Memory) :
    (removeIdentifierEvent s c).1.CountsMatch :=
  withHandle_keeps h fun _ _ hst _ => guarded_keeps h fun _ => h.congr rfl (ruleLists_setStation hst rfl)

theorem State.CountsMatch.attachRule {s : State} (h : s.CountsMatch) {i : Slot} {st : Station} {n : RuleNumber}
    (hst : s.station i = some st) (hdefined : s.rstore[n.val].body.isSome = true) (hnew : n ∉ st.rules) :
    (s.attachRule i st n).CountsMatch := by
  rw [State.countsMatch_iff] at h ⊢
  rw [← ruleLists_of_station hst] at hnew
  rw [State.attachRule_rstore, State.attachRule_stab, ruleLists_tset, Option.map_some, Option.getD_some,
    ← ruleLists_of_station hst]
  exact h.attach hnew hdefined

theorem State.CountsMatch.detachRule {s : State} (h : s.CountsMatch) {i : Slot} {st : Station} {n : RuleNumber}
    (hst : s.station i = some st) (hlisted : n ∈ st.rules) : (s.detachRule i st n).CountsMatch := by
  rw [State.countsMatch_iff] at h ⊢
  rw [← ruleLists_of_station hst] at hlisted
  rw [State.detachRule_rstore, State.detachRule_stab, ruleLists_tset, Option.map_some, Option.getD_some,
    ← ruleLists_of_station hst]
  exact h.detach hlisted

/-- R177: the checks make sure that the rule is DEFINED and new to the list. -/
theorem attachRuleEvent_countsMatch {s : State} (h : s.CountsMatch) (c : Memory) :
    (attachRuleEvent s c).1.CountsMatch := by
  refine withHandle_keeps h fun i st hst _ => withRule_keeps h fun n _ => guarded_keeps h fun hpass => ?_
  simp only [firstFailed_none, List.forall_mem_cons, decide_eq_false_iff_not] at hpass
  obtain ⟨-, hdefined, hnew, -⟩ := hpass
  exact h.attachRule hst (by simpa using hdefined) hnew

/-- R73, R177: the check makes sure that the rule is listed. -/
theorem detachRuleEvent_countsMatch {s : State} (h : s.CountsMatch) (c : Memory) :
    (detachRuleEvent s c).1.CountsMatch := by
  refine withHandle_keeps h fun i st hst _ => withRule_keeps h fun n _ => guarded_keeps h fun hpass => ?_
  simp only [firstFailed_none, List.forall_mem_cons, decide_eq_false_iff_not, not_not] at hpass
  obtain ⟨-, hlisted, -⟩ := hpass
  exact h.detachRule hst hlisted

theorem sleepEvent_countsMatch {s : State} (h : s.CountsMatch) (c : Memory) : (sleepEvent s c).1.CountsMatch :=
  withHandle_keeps h fun _ _ _ _ => h.congr (by simp) (by simp)

theorem wakeEvent_countsMatch {s : State} (h : s.CountsMatch) (c : Memory) : (wakeEvent s c).1.CountsMatch :=
  withHandle_keeps h fun _ _ hst _ => h.congr (by simp) (ruleLists_wakeCommanded hst)

theorem retireEvent_countsMatch {s : State} (h : s.CountsMatch) (c : Memory) : (retireEvent s c).1.CountsMatch :=
  withHandle_keeps h fun _ _ hst _ => h.retire hst

theorem clearCountersEvent_countsMatch {s : State} (h : s.CountsMatch) (c : Memory) :
    (clearCountersEvent s c).1.CountsMatch :=
  withHandle_keeps h fun _ _ hst _ => h.setStation hst rfl

/-- A rule that no record lists is replaced by one with count 0. -/
theorem State.CountsMatch.replaceRule {s : State} (h : s.CountsMatch) {n : RuleNumber} {r : Rule}
    (hfree : ∀ i, n ∉ ruleLists s.stab i) (hr : r.refCount = 0) :
    ({ s with rstore := tset s.rstore n r } : State).CountsMatch := by
  rw [State.countsMatch_iff] at h ⊢
  exact h.replace hfree hr

/-- R69: the place is FREE, so no record lists it. -/
theorem defineEvent_countsMatch {s : State} (h : s.CountsMatch) (c : Memory) : (defineEvent s c).1.CountsMatch := by
  refine withRule_keeps h fun n _ => guarded_keeps h fun hpass => ?_
  have hplace : s.rstore[n.val].body.isSome = false := (firstFailed_none.mp hpass) _ List.mem_cons_self
  have hagree := s.countsMatch_iff.mp h
  refine h.replaceRule (fun i hi => ?_) rfl
  exact absurd (hagree.defined n i hi) (by simp [hplace])

/-- R70: the count is 0, so no record lists the rule. -/
theorem deleteEvent_countsMatch {s : State} (h : s.CountsMatch) (c : Memory) : (deleteEvent s c).1.CountsMatch := by
  refine withRule_keeps h fun n _ => guarded_keeps h fun hpass => ?_
  simp only [firstFailed_none, List.forall_mem_cons, decide_eq_false_iff_not] at hpass
  obtain ⟨-, hunused, -⟩ := hpass
  have hagree := s.countsMatch_iff.mp h
  exact h.replaceRule (fun i hi => hunused (hagree.one_le hi)) rfl

theorem ruleReadEvent_state (s : State) (c : Memory) : (ruleReadEvent s c).1 = s :=
  withRule_keeps (P := (· = s)) rfl fun _ _ => rfl

theorem readEvent_state (s : State) (c : Memory) : (readEvent s c).1 = s :=
  withHandle_keeps (P := (· = s)) rfl fun _ _ _ _ => rfl

/-! ### Frames in -/

theorem execFrameArrival_countsMatch {s t : State} (h : s.CountsMatch) (part : ArrivalPart)
    (ht : execFrameArrival part s = .next t) : t.CountsMatch := by
  cases part with
  | start => exact countsMatch_of_settle_congr ht h (by simp) (by simp)
  | finish tag bytes => exact countsMatch_of_settle_congr ht h (by simp) (by simp)
  | whole tag bytes =>
    unfold execFrameArrival at ht
    simp only [] at ht
    split at ht
    · exact countsMatch_of_settle_congr ht h (by simp) (by simp)
    · exact h.of_settle ht

theorem execFrameClassification_countsMatch {s t : State} (h : s.CountsMatch) (extent : ClassificationExtent)
    (ht : execFrameClassification extent s = .next t) : t.CountsMatch := by
  cases extent with
  | whole => exact countsMatch_of_settle_congr ht h (by simp) (by simp)
  | tests n => exact countsMatch_of_settle_congr ht h (by simp) (by simp)

/-! ### What ICLS presents to STAB -/

theorem State.CountsMatch.popPresented {s : State} (h : s.CountsMatch) (i : Slot) : (s.popPresented i).CountsMatch :=
  h.congr rfl rfl

/-- The record ICLS matched is the one in the slot, also once the event is taken from the list. -/
theorem State.popPresented_matched {s : State} {i : Slot} {a : Address} {st : Station} (hm : s.matched i a = some st) :
    (s.popPresented i).station i = some st :=
  (State.matched_some hm).1

theorem execSighting_countsMatch {s t : State} (h : s.CountsMatch) (i : Slot) (ht : execSighting i s = .next t) :
    t.CountsMatch := by
  unfold execSighting at ht
  split at ht
  · split at ht
    · exact countsMatch_of_settle_congr ht (h.popPresented i) (by simp) (by simp)
    · exact (h.popPresented i).of_settle ht
  · exact h.of_settle ht

theorem execAnnouncement_countsMatch {s t : State} (h : s.CountsMatch) (i : Slot) (ht : execAnnouncement i s = .next t) :
    t.CountsMatch := by
  unfold execAnnouncement at ht
  split at ht
  · split at ht
    · next st hm =>
      have hlists := ruleLists_takeAnnouncement (State.popPresented_matched hm)
      exact countsMatch_of_settle_congr ht (h.popPresented i) (by simp) (hlists _ _ _)
    · exact countsMatch_of_settle_congr ht (h.popPresented i) rfl rfl
  · exact h.of_settle ht

theorem execWakeTrigger_countsMatch {s t : State} (h : s.CountsMatch) (i : Slot) (ht : execWakeTrigger i s = .next t) :
    t.CountsMatch := by
  unfold execWakeTrigger at ht
  split at ht
  · split at ht
    · next st hm =>
      have hlists := ruleLists_iclsTrigger (State.popPresented_matched hm)
      exact countsMatch_of_settle_congr ht (h.popPresented i) (by simp) (hlists _ _)
    · split at ht
      · exact countsMatch_of_settle_congr ht (h.popPresented i) rfl rfl
      · exact (h.popPresented i).of_settle ht
  · exact h.of_settle ht

theorem execShed_countsMatch {s t : State} (h : s.CountsMatch) (i : Slot) (ht : execShed i s = .next t) :
    t.CountsMatch := by
  unfold execShed at ht
  split at ht
  · split at ht
    · exact countsMatch_of_settle_congr ht (h.popPresented i) (by simp) (by simp)
    · exact (h.popPresented i).of_settle ht
  · exact h.of_settle ht

/-! ### Answers, emission, the steering link -/

theorem State.CountsMatch.answerNext {s : State} (h : s.CountsMatch) (job : AnswerJob) :
    (s.popAnswerJob.answer job).CountsMatch :=
  h.congr (by simp) (by simp)

theorem execReplyJob_countsMatch {s t : State} (h : s.CountsMatch) (ht : execReplyJob s = .next t) : t.CountsMatch := by
  unfold execReplyJob at ht
  split at ht
  · exact h.of_settle ht
  · split at ht
    · exact (h.answerNext _).of_settle ht
    · exact h.of_settle ht

theorem execProbeReplyJob_countsMatch {s t : State} (h : s.CountsMatch) (ht : execProbeReplyJob s = .next t) :
    t.CountsMatch := by
  unfold execProbeReplyJob at ht
  split at ht
  · exact h.of_settle ht
  · split at ht
    · exact (h.answerNext _).of_settle ht
    · exact h.of_settle ht

theorem execSleepAckJob_countsMatch {s t : State} (h : s.CountsMatch) (ht : execSleepAckJob s = .next t) :
    t.CountsMatch := by
  unfold execSleepAckJob at ht
  split at ht
  · exact h.of_settle ht
  · exact countsMatch_of_settle_congr ht h (by simp) (by simp)

theorem execTransmissionBegin_countsMatch {s t : State} (h : s.CountsMatch) (ht : execTransmissionBegin s = .next t) :
    t.CountsMatch := by
  unfold execTransmissionBegin at ht
  split at ht
  · split at ht
    · exact countsMatch_of_settle_congr ht h rfl rfl
    · exact countsMatch_of_settle_congr ht h rfl rfl
  · exact h.of_settle ht

theorem execTransmissionCompletion_countsMatch {s t : State} (h : s.CountsMatch)
    (ht : execTransmissionCompletion s = .next t) : t.CountsMatch := by
  unfold execTransmissionCompletion at ht
  split at ht
  · exact countsMatch_of_settle_congr ht h (by simp) (by simp)
  · exact h.of_settle ht

theorem execSteerSend_countsMatch {s t : State} (h : s.CountsMatch) (ht : execSteerSend s = .next t) :
    t.CountsMatch := by
  unfold execSteerSend at ht
  split at ht
  · exact h.of_settle ht
  · split at ht
    · exact countsMatch_of_settle_congr ht h rfl rfl
    · exact h.of_settle ht

theorem State.CountsMatch.afterRun {s : State} (h : s.CountsMatch) : s.afterRun.CountsMatch := h.congr rfl rfl

theorem execAck_countsMatch {s t : State} (h : s.CountsMatch) (run : List Byte) (ht : execAck run s = .next t) :
    t.CountsMatch := by
  unfold execAck at ht
  split at ht
  · exact (h.takeAnswer _ _).afterRun.of_settle ht
  · exact h.afterRun.of_settle ht

theorem execNak_countsMatch {s t : State} (h : s.CountsMatch) (run : List Byte) (ht : execNak run s = .next t) :
    t.CountsMatch := by
  unfold execNak at ht
  split at ht
  · exact (h.takeAnswer _ _).afterRun.of_settle ht
  · exact h.afterRun.of_settle ht

theorem execAckTimeout_countsMatch {s t : State} (h : s.CountsMatch) (elapsed : Nat)
    (ht : execAckTimeout elapsed s = .next t) : t.CountsMatch := by
  unfold execAckTimeout at ht
  simp only [] at ht
  split at ht
  · exact countsMatch_of_settle_congr ht h (by simp) (by simp)
  · exact countsMatch_of_settle_congr ht h rfl rfl

theorem execDeferredStart_countsMatch {s t : State} (h : s.CountsMatch) (ht : execDeferredStart s = .next t) :
    t.CountsMatch := by
  unfold execDeferredStart at ht
  split at ht
  · exact countsMatch_of_settle_congr ht h rfl rfl
  · exact countsMatch_of_settle_congr ht h rfl rfl

/-! ### The statement -/

/-- Settles O56: only an attach, a detach, a vacancy, RULE_DEFINE, RULE_DELETE and a reset touch the counts or the
rule lists, and each moves the two together. -/
theorem ruleCountsKept : Obligations.RuleCountsKept := by
  unfold Obligations.RuleCountsKept
  intro c s t h ht
  cases c with simp only [exec] at ht
  | hardReset => exact (State.CountsMatch.hardReset s).of_settle ht
  | softReset => exact (State.CountsMatch.softReset _).of_settle ht
  | registerWrite part data => exact execRegisterWrite_countsMatch h part data ht
  | runSet => exact (h.unlessIssued _).runSet.of_settle ht
  | runCleared => exact (h.unlessIssued _).runCleared.of_settle ht
  | go =>
    exact countsMatch_of_settle_congr ht (h.unlessIssued (decide (PortEvent.go ∈ s.mport.issued))) (by simp) (by simp)
  | intEnableWrite value => exact countsMatch_of_settle_congr ht h.beginTransaction rfl rfl
  | cmdOverrunClear => exact (h.clearRow _).of_settle ht
  | noticeOverrunClear => exact (h.clearRow _).of_settle ht
  | configRefusedClear => exact (h.clearRow _).of_settle ht
  | nameWriteRefusedClear => exact (h.clearRow _).of_settle ht
  | configurationWrite field value => exact countsMatch_of_settle_congr ht h.beginTransaction (by simp) (by simp)
  | recognitionValueWrite first bytes => exact countsMatch_of_settle_congr ht h.beginTransaction (by simp) (by simp)
  | noticeParameterWrite field value => exact countsMatch_of_settle_congr ht h.beginTransaction (by simp) (by simp)
  | take part => exact execTake_countsMatch h part ht
  | stationCreate upTo => exact runRow_countsMatch h (createEvent_countsMatch h) ht
  | stationSetTemplate upTo => exact runRow_countsMatch h (setTemplateEvent_countsMatch h) ht
  | stationClearTemplate upTo => exact runRow_countsMatch h (clearTemplateEvent_countsMatch h) ht
  | stationAddIdentifier upTo => exact runRow_countsMatch h (addIdentifierEvent_countsMatch h) ht
  | stationRemoveIdentifier upTo => exact runRow_countsMatch h (removeIdentifierEvent_countsMatch h) ht
  | stationAttachRule upTo => exact runRow_countsMatch h (attachRuleEvent_countsMatch h) ht
  | stationDetachRule upTo => exact runRow_countsMatch h (detachRuleEvent_countsMatch h) ht
  | stationRead upTo => exact runRow_countsMatch h (fun c => by rwa [readEvent_state]) ht
  | stationSleep upTo => exact runRow_countsMatch h (sleepEvent_countsMatch h) ht
  | stationWake upTo => exact runRow_countsMatch h (wakeEvent_countsMatch h) ht
  | stationRetire upTo => exact runRow_countsMatch h (retireEvent_countsMatch h) ht
  | stationClearCounters upTo => exact runRow_countsMatch h (clearCountersEvent_countsMatch h) ht
  | stationFind upTo => exact runRow_countsMatch h (fun c => by rwa [findEvent_state]) ht
  | ruleDefine upTo => exact runRow_countsMatch h (defineEvent_countsMatch h) ht
  | ruleDelete upTo => exact runRow_countsMatch h (deleteEvent_countsMatch h) ht
  | ruleRead upTo => exact runRow_countsMatch h (fun c => by rwa [ruleReadEvent_state]) ht
  | steerRestart upTo => exact runRow_countsMatch h (fun c => h.congr (by simp [restartEvent]) (by simp [restartEvent])) ht
  | unknownCommandCode upTo => exact runRow_countsMatch h (fun _ => h) ht
  | frameArrival part => exact execFrameArrival_countsMatch h part ht
  | frameClassification extent => exact execFrameClassification_countsMatch h extent ht
  | sighting slot => exact execSighting_countsMatch h slot ht
  | announcement slot => exact execAnnouncement_countsMatch h slot ht
  | wakeTrigger slot => exact execWakeTrigger_countsMatch h slot ht
  | shed slot => exact execShed_countsMatch h slot ht
  | leaseExpiry slot elapsed =>
    exact countsMatch_of_settle_congr ht h (by simp) (by rw [ruleLists_expireLease, ruleLists_passSeconds])
  | intervalExpiry slot elapsed => exact countsMatch_of_settle_congr ht h (by simp) (by simp)
  | replyJob => exact execReplyJob_countsMatch h ht
  | probeReplyJob => exact execProbeReplyJob_countsMatch h ht
  | sleepAckJob => exact execSleepAckJob_countsMatch h ht
  | transmissionBegin => exact execTransmissionBegin_countsMatch h ht
  | transmissionCompletion => exact execTransmissionCompletion_countsMatch h ht
  | steerSend => exact execSteerSend_countsMatch h ht
  | ack run => exact execAck_countsMatch h run ht
  | nak run => exact execNak_countsMatch h run ht
  | steerMessageDiscarded run => exact h.afterRun.of_settle ht
  | ackTimeout elapsed => exact execAckTimeout_countsMatch h elapsed ht
  | deferredStart => exact execDeferredStart_countsMatch h ht
  | noticeHoldoff elapsed => exact countsMatch_of_settle_congr ht h rfl rfl
  | leaseSecondBoundary => exact countsMatch_of_settle_congr ht h (by simp) (ruleLists_passSeconds s 1)
  | ageBoundary => exact countsMatch_of_settle_congr ht h rfl rfl
  | lineIdle => exact countsMatch_of_settle_congr ht h rfl rfl

end Sys2Proof.Machine
end

section
/-! PROOF. RULE_READ (R71): the length of its result data, and the statement refuted at a rule of nine spans. -/

namespace Sys2Proof.Machine

/-! ### The length byte of a result record (R170) -/

theorem read_resultRecord_length (c : Memory) (r : Reply) :
    Memory.read (Memory.ofBytes (resultRecord c r)) 3 = BitVec.ofNat 8 r.data.length := by
  rw [Memory.ofBytes, Memory.read_writeBytes rfl]
  simp [resultRecord, Config.areaSize]

/-- Two result data that complete a command in the same state are of one length, as far as its byte shows it. -/
theorem State.Completes.length_eq {s t : State} {c : Memory} {k k' : ResultCode} {data data' : List Byte}
    (h : s.Completes t c k data) (h' : s.Completes t c k' data') :
    BitVec.ofNat 8 data.length = BitVec.ofNat 8 data'.length := by
  have harea := congrArg (fun e : Cmde => Memory.read e.resultArea 3) (h.symm.trans h')
  simpa only [read_resultRecord_length] using harea

/-! ### RULE_READ -/

/-- A rule number in range passes the one check at CMDE, and the event reads the rule as it stands. -/
theorem State.Latched.ruleRead {s : State} {c : Memory} {n : RuleNumber} (h : s.Latched 0x22#8 c)
    (hn : n.val = ruleByte c) : exec (.ruleRead .completion) s =
      .next (s.complete c { code := .ok, data := ruleData n s.rstore[n.val] }).drivePins := by
  have hrow := h.runRow (accepts := (· = 0x22#8)) (checks := ruleNumberChecks) (event := ruleReadEvent) (by decide)
  have hcheck : ruleNumberChecks s c = none := by
    have hlt := n.isLt
    simp only [ruleNumberChecks, firstFailed_none, List.forall_mem_singleton, ruleCheck, decide_eq_false_iff_not]
    omega
  rw [hcheck] at hrow
  simp only [ruleReadEvent, withRule_eq hn] at hrow
  exact hrow

@[simp] theorem beBytes_length (len n : Nat) : (beBytes len n).length = len := by
  induction len with
  | zero => rfl
  | succ len ih => simp [beBytes, ih]

/-- Table 12-7 leaves room for 8 spans of four bytes; a longer list takes the result data beyond its 41 bytes. -/
theorem ruleData_length {n : RuleNumber} {r : Rule} {b : RuleBody} (hb : r.body = some b) :
    (ruleData n r).length = 9 + max 32 (4 * b.spans.length) := by
  have hspans : (b.spans.flatMap fun x => beBytes 2 x.offset ++ beBytes 2 x.length).length = 4 * b.spans.length := by
    simp [List.length_flatMap, mul_comm]
  simp only [ruleData, hb, padTo, List.length_append, hspans, beBytes_length, List.length_cons, List.length_nil,
    List.length_replicate]
  omega

/-- RULE_READ of rule 0. -/
def readRuleZero : Memory := Memory.ofBytes [0x22#8, 0#8, 0#8]

/-- RULE_READ latched, with rule 0 DEFINED by nine spans: one more than R60 allows, and more than Table 12-7 has room
for. RULE_DEFINE stores no such rule, so no run reaches this state (`State.RulesValid` excludes it). -/
def nineSpanRule : State :=
  { State.reset with
    rstore := tset State.reset.rstore (0 : RuleNumber)
      { refCount := 0, body := some { scope := .any, spans := List.replicate 9 ⟨0, 1⟩, digest := 0#32 } }
    cmde := { State.reset.cmde with engine := .busy readRuleZero .latched } }

theorem nineSpanRule_latched : nineSpanRule.Latched 0x22#8 readRuleZero := ⟨rfl, by decide⟩

/-- The model answers RULE_READ of the nine-span rule with 45 bytes of result data. -/
theorem nineSpanRule_data_length : (ruleData 0 nineSpanRule.rstore[(0 : RuleNumber).val]).length = 45 :=
  ruleData_length (b := ⟨.any, List.replicate 9 ⟨0, 1⟩, 0#32⟩) rfl

/-- Refutes O25: it asks for 41 bytes of result data in every state, and bounds the span list to 8 only for what the
bytes say. With nine spans the length byte of the result record reads 45. -/
theorem not_ruleReadResult : ¬ Obligations.RuleReadResult := by
  unfold Obligations.RuleReadResult
  intro h
  have hzero : (0 : RuleNumber).val = ruleByte readRuleZero := by decide
  obtain ⟨t, ht, -, hread⟩ := h nineSpanRule readRuleZero nineSpanRule_latched
  obtain ⟨-, data, hcompletes, hlength, -⟩ := hread 0 hzero (by decide)
  rw [nineSpanRule_latched.ruleRead hzero] at ht
  cases ht
  have hbyte := hcompletes.length_eq (nineSpanRule.completes_complete readRuleZero _)
  rw [hlength, nineSpanRule_data_length] at hbyte
  exact absurd hbyte (by decide)

end Sys2Proof.Machine
end

section
/-! PROOF. The steering link and the records, slot by slot (R22, R147 to R161, Table 2-1): what a request placed, cancelled, sent or answered leaves of the agreement. -/

namespace Sys2Proof.Machine

/-! ### The agreement, slot by slot -/

/-- The unsent requests of a slot, in queue order. -/
def Steer.unsentOf (t : Steer) (i : Slot) : List SteerRequest := t.queue.filter fun r => decide (r.slot = i)

/-- The request in flight, where it is a station's and of this slot. -/
def Steer.sentOf (t : Steer) (i : Slot) : Option SteerRequest := t.sentRequest.filter fun r => decide (r.slot = i)

/-- The request carries the address, segment and port of this record (R148). -/
def SteerRequest.IsOf (r : SteerRequest) (x : Option Station) : Prop :=
  ∃ st, x = some st ∧ st.address = r.address ∧ st.segment = r.segment ∧ st.port = r.port

/-- A record, its unsent requests and its request in flight agree. -/
structure RecordAgrees (x : Option Station) (unsent : List SteerRequest) (sent : Option SteerRequest) : Prop where
  fit : requestsFit (x.map (·.state)) (unsent.map (·.kind)) (sent.map (·.kind))
  unsentOf : ∀ r ∈ unsent, r.IsOf x
  sentOf : ∀ r, sent = some r → r.IsOf x

theorem Steer.mem_unsentOf {t : Steer} {i : Slot} {r : SteerRequest} : r ∈ t.unsentOf i ↔ r ∈ t.queue ∧ r.slot = i := by
  simp [Steer.unsentOf]

theorem Steer.sentOf_eq_some {t : Steer} {i : Slot} {r : SteerRequest} :
    t.sentOf i = some r ↔ t.sentRequest = some r ∧ r.slot = i := by
  simp [Steer.sentOf, Option.filter_eq_some_iff]

theorem State.steeringMatches_iff (s : State) : s.SteeringMatches ↔ s.steer.ShapeOk ∧
    (s.steer.mode ≠ .running → ∀ i st, s.station i = some st → st.state.settled = true) ∧
    ∀ i, RecordAgrees (s.station i) (s.steer.unsentOf i) (s.steer.sentOf i) := by
  constructor
  · rintro ⟨hshape, hsettled, hfit, hqueue, hsent⟩
    refine ⟨hshape, hsettled, fun i => ⟨hfit i, fun r hr => ?_, fun r hr => ?_⟩⟩
    · obtain ⟨hmem, rfl⟩ := Steer.mem_unsentOf.mp hr
      exact hqueue r hmem
    · obtain ⟨hsome, rfl⟩ := Steer.sentOf_eq_some.mp hr
      exact hsent r hsome
  · rintro ⟨hshape, hsettled, hagrees⟩
    exact ⟨hshape, hsettled, fun i => (hagrees i).fit,
      fun r hr => (hagrees r.slot).unsentOf r (Steer.mem_unsentOf.mpr ⟨hr, rfl⟩),
      fun r hr => (hagrees r.slot).sentOf r (Steer.sentOf_eq_some.mpr ⟨hr, rfl⟩)⟩

theorem State.SteeringMatches.shape {s : State} (h : s.SteeringMatches) : s.steer.ShapeOk := (s.steeringMatches_iff.mp h).1

theorem State.SteeringMatches.agrees {s : State} (h : s.SteeringMatches) (i : Slot) :
    RecordAgrees (s.station i) (s.steer.unsentOf i) (s.steer.sentOf i) := (s.steeringMatches_iff.mp h).2.2 i

/-- The same at a slot whose record is known. -/
theorem State.SteeringMatches.agreesAt {s : State} (h : s.SteeringMatches) {i : Slot} {st : Station}
    (hst : s.station i = some st) : RecordAgrees (some st) (s.steer.unsentOf i) (s.steer.sentOf i) := hst ▸ h.agrees i

/-- A record that is not settled is one in RUNNING (R44, R180). -/
theorem State.SteeringMatches.running {s : State} (h : s.SteeringMatches) {i : Slot} {st : Station}
    (hst : s.station i = some st) (hq : st.state.settled = false) : s.steer.mode = .running := by
  by_contra hmode
  rw [h.2.1 hmode i st hst] at hq
  cases hq

/-- The steering of `u` agrees with its records where that of `s` does. -/
def State.SteersTo (s u : State) : Prop := s.SteeringMatches → u.SteeringMatches

/-! ### What a record in each state has of requests -/

/-- The states of a record with no request: AWAKE, ASLEEP, WAKING and LAPSED. -/
def StationState.atRest (q : StationState) : Prop := ∀ unsent sent, requestsFit (some q) unsent sent ↔ unsent = [] ∧ sent = none

theorem StationState.atRest_awake : StationState.awake.atRest := fun _ _ => Iff.rfl
theorem StationState.atRest_asleep (l : Option LeaseRun) : (StationState.asleep l).atRest := fun _ _ => Iff.rfl
theorem StationState.atRest_waking (c : WakeCause) (b : Option (Fin 16)) : (StationState.waking c b).atRest := fun _ _ => Iff.rfl
theorem StationState.atRest_lapsed : StationState.lapsed.atRest := fun _ _ => Iff.rfl

theorem StationState.atRest_of_settled {q : StationState} (h : q.settled = true) : q.atRest := by
  cases q with
  | awake => exact atRest_awake
  | lapsed => exact atRest_lapsed
  | _ => cases h

theorem RecordAgrees.vacant : RecordAgrees none [] none := ⟨⟨rfl, rfl⟩, fun _ h => (nomatch h), fun _ h => (nomatch h)⟩

theorem RecordAgrees.rest {st : Station} (hq : st.state.atRest) : RecordAgrees (some st) [] none :=
  ⟨(hq [] none).mpr ⟨rfl, rfl⟩, fun _ h => (nomatch h), fun _ h => (nomatch h)⟩

theorem RecordAgrees.none_of_rest {st : Station} {unsent : List SteerRequest} {sent : Option SteerRequest}
    (h : RecordAgrees (some st) unsent sent) (hq : st.state.atRest) : unsent = [] ∧ sent = none := by
  obtain ⟨hunsent, hsent⟩ := (hq _ _).mp h.fit
  exact ⟨List.map_eq_nil_iff.mp hunsent, Option.map_eq_none_iff.mp hsent⟩

theorem RecordAgrees.none_of_vacant {unsent : List SteerRequest} {sent : Option SteerRequest}
    (h : RecordAgrees none unsent sent) : unsent = [] ∧ sent = none := by
  obtain ⟨hunsent, hsent⟩ : unsent.map (·.kind) = [] ∧ sent.map (·.kind) = none := h.fit
  exact ⟨List.map_eq_nil_iff.mp hunsent, Option.map_eq_none_iff.mp hsent⟩

/-- Another record with the same address, segment and port, in a state that fits the same requests. -/
theorem RecordAgrees.congr {st st' : Station} {unsent : List SteerRequest} {sent : Option SteerRequest}
    (h : RecordAgrees (some st) unsent sent) (ha : st'.address = st.address) (hg : st'.segment = st.segment)
    (hp : st'.port = st.port) (hq : ∀ a b, requestsFit (some st.state) a b → requestsFit (some st'.state) a b) :
    RecordAgrees (some st') unsent sent := by
  have hof : ∀ r : SteerRequest, r.IsOf (some st) → r.IsOf (some st') := by
    rintro r ⟨x, hx, hra, hrg, hrp⟩
    cases hx
    exact ⟨st', rfl, ha.trans hra, hg.trans hrg, hp.trans hrp⟩
  exact ⟨hq _ _ h.fit, fun r hr => hof r (h.unsentOf r hr), fun r hr => hof r (h.sentOf r hr)⟩

theorem List.map_eq_singleton_of {α β : Type} {f : α → β} {l : List α} {b : β} (h : l.map f = [b]) :
    ∃ a, l = [a] ∧ f a = b := by
  cases l with
  | nil => cases h
  | cons a r => cases r with
    | nil => exact ⟨a, rfl, (List.cons.inj h).1⟩
    | cons _ _ => cases h

/-- R27, R29: an ENTERING record has its DIVERT either unsent or in flight. -/
theorem RecordAgrees.entering {st : Station} {o : SleepOrigin} {unsent : List SteerRequest} {sent : Option SteerRequest}
    (h : RecordAgrees (some st) unsent sent) (ho : st.state = .entering o) :
    (∃ r, unsent = [r] ∧ r.kind = .divert ∧ sent = none) ∨ ∃ r, unsent = [] ∧ sent = some r ∧ r.kind = .divert := by
  have hfit := h.fit
  simp only [Option.map_some, ho, requestsFit] at hfit
  rcases hfit with ⟨hunsent, hsent⟩ | ⟨hunsent, hsent⟩
  · obtain ⟨r, hr, hk⟩ := List.map_eq_singleton_of hunsent
    exact Or.inl ⟨r, hr, hk, Option.map_eq_none_iff.mp hsent⟩
  · obtain ⟨r, hr, hk⟩ := Option.map_eq_some_iff.mp hsent
    exact Or.inr ⟨r, List.map_eq_nil_iff.mp hunsent, hr, hk⟩

/-! ### Moves of one slot -/

/-- A move at one slot: the records and requests of the other slots stay, and the mode. -/
theorem State.SteeringMatches.move {s u : State} (h : s.SteeringMatches) {i : Slot} {x : Option Station}
    (hst : ∀ j, u.station j = if i = j then x else s.station j)
    (hunsent : ∀ j, i ≠ j → u.steer.unsentOf j = s.steer.unsentOf j)
    (hsent : ∀ j, i ≠ j → u.steer.sentOf j = s.steer.sentOf j) (hshape : u.steer.ShapeOk)
    (hmode : u.steer.mode = s.steer.mode)
    (hsettled : s.steer.mode = .running ∨ ∀ st, x = some st → st.state.settled = true)
    (hi : RecordAgrees x (u.steer.unsentOf i) (u.steer.sentOf i)) : u.SteeringMatches := by
  rw [State.steeringMatches_iff] at h ⊢
  obtain ⟨-, hsettled', hagrees⟩ := h
  refine ⟨hshape, fun hm j st hj => ?_, fun j => ?_⟩
  · rw [hmode] at hm
    rw [hst] at hj
    split at hj
    · exact hsettled.resolve_left hm st hj
    · exact hsettled' hm j st hj
  · rw [hst]
    split
    · next hij => subst hij; exact hi
    · next hij => rw [hunsent j hij, hsent j hij]; exact hagrees j

/-- STEER stays, and the record of one slot changes to one that its requests agree with. -/
theorem State.SteeringMatches.setRecord {s u : State} (h : s.SteeringMatches) {i : Slot} {x : Option Station}
    (hst : ∀ j, u.station j = if i = j then x else s.station j) (hsteer : u.steer = s.steer)
    (hsettled : s.steer.mode = .running ∨ ∀ st, x = some st → st.state.settled = true)
    (hi : RecordAgrees x (s.steer.unsentOf i) (s.steer.sentOf i)) : u.SteeringMatches :=
  h.move hst (fun _ _ => by rw [hsteer]) (fun _ _ => by rw [hsteer]) (by rw [hsteer]; exact h.shape)
    (by rw [hsteer]) hsettled (by rw [hsteer]; exact hi)

theorem State.SteeringMatches.congr {s u : State} (h : s.SteeringMatches) (hsteer : u.steer = s.steer)
    (hst : ∀ i, u.station i = s.station i) : u.SteeringMatches := by
  rw [State.steeringMatches_iff] at h ⊢
  simpa only [hsteer, hst] using h

theorem State.station_setStation_of {s u : State} {i : Slot} {st : Station} (h : u.stab = (s.setStation i st).stab) (j : Slot) :
    u.station j = if i = j then some st else s.station j := by
  rw [State.station_of_stab h, State.setStation_station]

/-- STEER stays, and a record changes to a state that fits the same requests, settled if the old one was. -/
theorem State.SteeringMatches.setStation {s u : State} (h : s.SteeringMatches) {i : Slot} {st st' : Station}
    (hst : s.station i = some st) (hstab : u.stab = (s.setStation i st').stab) (hsteer : u.steer = s.steer)
    (hid : st'.address = st.address ∧ st'.segment = st.segment ∧ st'.port = st.port)
    (hq : ∀ a b, requestsFit (some st.state) a b → requestsFit (some st'.state) a b)
    (hsettled : st.state.settled = true → st'.state.settled = true) : u.SteeringMatches := by
  refine h.setRecord (State.station_setStation_of hstab) hsteer ?_ ((h.agreesAt hst).congr hid.1 hid.2.1 hid.2.2 hq)
  by_cases hm : s.steer.mode = .running
  · exact Or.inl hm
  · exact Or.inr fun x hx => by cases hx; exact hsettled (h.2.1 hm i st hst)

/-- The same with the state of the record unchanged. -/
theorem State.SteeringMatches.setFields {s u : State} (h : s.SteeringMatches) {i : Slot} {st st' : Station}
    (hst : s.station i = some st) (hstab : u.stab = (s.setStation i st').stab) (hsteer : u.steer = s.steer)
    (hid : st'.address = st.address ∧ st'.segment = st.segment ∧ st'.port = st.port) (hq : st'.state = st.state) :
    u.SteeringMatches :=
  h.setStation hst hstab hsteer hid (fun _ _ hf => hq ▸ hf) fun hs => hq ▸ hs

/-- A record at rest changes to another state of rest. -/
theorem State.SteeringMatches.setRest {s u : State} (h : s.SteeringMatches) {i : Slot} {st st' : Station}
    (hst : s.station i = some st) (hstab : u.stab = (s.setStation i st').stab) (hsteer : u.steer = s.steer)
    (hid : st'.address = st.address ∧ st'.segment = st.segment ∧ st'.port = st.port)
    (hq : st.state.atRest) (hq' : st'.state.atRest) (hsettled : st.state.settled = true → st'.state.settled = true) :
    u.SteeringMatches :=
  h.setStation hst hstab hsteer hid (fun a b hf => (hq' a b).mpr ((hq a b).mp hf)) hsettled

/-! ### STEER alone -/

/-- STEER changes, its requests stay, and the records are settled where the new mode asks it. -/
theorem State.SteeringMatches.resteer {s u : State} (h : s.SteeringMatches) (hst : ∀ i, u.station i = s.station i)
    (hqueue : u.steer.queue = s.steer.queue) (hsent : u.steer.sentRequest = s.steer.sentRequest) (hshape : u.steer.ShapeOk)
    (hmode : u.steer.mode ≠ .running → s.steer.mode ≠ .running) : u.SteeringMatches := by
  rw [State.steeringMatches_iff] at h ⊢
  obtain ⟨-, hsettled, hagrees⟩ := h
  refine ⟨hshape, fun hm i st hi => hsettled (hmode hm) i st (hst i ▸ hi), fun i => ?_⟩
  have hunsentOf : u.steer.unsentOf i = s.steer.unsentOf i := by unfold Steer.unsentOf; rw [hqueue]
  have hsentOf : u.steer.sentOf i = s.steer.sentOf i := by unfold Steer.sentOf; rw [hsent]
  rw [hst, hunsentOf, hsentOf]
  exact hagrees i

/-- In RUNNING the queue may be any, as far as the mode's shape goes. -/
theorem Steer.ShapeOk.withQueue {t : Steer} (h : t.ShapeOk) (hm : t.mode = .running) (queue : List SteerRequest) :
    ({ t with queue := queue } : Steer).ShapeOk := by
  obtain ⟨htimer, hstart, hmode⟩ := h
  refine ⟨htimer, hstart, ?_⟩
  simp only [hm] at hmode ⊢
  exact hmode

/-! ### Requests placed (R148) -/

theorem Steer.withRequest_running {t : Steer} (hm : t.mode = .running) (k : SteerKind) (i : Slot) (st : Station) :
    t.withRequest k i st = { t with queue := t.queue ++
      [{ kind := k, slot := i, address := st.address, segment := st.segment, port := st.port }] } := by
  simp [Steer.withRequest, hm]

theorem Steer.unsentOf_append (t : Steer) (r : SteerRequest) (j : Slot) :
    ({ t with queue := t.queue ++ [r] } : Steer).unsentOf j = if r.slot = j then t.unsentOf j ++ [r] else t.unsentOf j := by
  simp only [Steer.unsentOf, List.filter_append, List.filter_cons, List.filter_nil, decide_eq_true_eq]
  split
  · rfl
  · rw [List.append_nil]

/-- A record with no unsent request enters a state and places a request, in RUNNING. -/
theorem State.SteeringMatches.place {s u : State} (h : s.SteeringMatches) {i : Slot} {st : Station} {k : SteerKind}
    {q : StationState} (hst : s.station i = some st) (hstab : u.stab = (s.setStation i { st with state := q }).stab)
    (hsteer : u.steer = s.steer.withRequest k i st) (hrunning : s.steer.mode = .running)
    (hunsent : s.steer.unsentOf i = []) (hfit : requestsFit (some q) [k] ((s.steer.sentOf i).map (·.kind))) :
    u.SteeringMatches := by
  rw [Steer.withRequest_running hrunning] at hsteer
  refine h.move (State.station_setStation_of hstab) (fun j hij => ?_) (fun _ _ => by rw [hsteer]; rfl) ?_ (by rw [hsteer])
    (Or.inl hrunning) ?_
  · rw [hsteer, Steer.unsentOf_append, if_neg hij]
  · rw [hsteer]; exact h.shape.withQueue hrunning _
  · rw [hsteer, Steer.unsentOf_append, if_pos rfl, hunsent]
    refine ⟨hfit, fun r hr => ?_, fun r hr => ?_⟩
    · rw [List.nil_append, List.mem_singleton] at hr
      subst hr
      exact ⟨_, rfl, rfl, rfl, rfl⟩
    · obtain ⟨x, hx, ha, hg, hp⟩ := (h.agreesAt hst).sentOf r hr
      cases hx
      exact ⟨_, rfl, ha, hg, hp⟩

/-- R25, R29, R40 to R43: a record at rest places its request, in RUNNING. -/
theorem State.SteeringMatches.placeAtRest {s u : State} (h : s.SteeringMatches) {i : Slot} {st : Station} {k : SteerKind}
    {q : StationState} (hst : s.station i = some st) (hstab : u.stab = (s.setStation i { st with state := q }).stab)
    (hsteer : u.steer = s.steer.withRequest k i st) (hrunning : s.steer.mode = .running) (hrest : st.state.atRest)
    (hfit : requestsFit (some q) [k] none) : u.SteeringMatches := by
  obtain ⟨hunsent, hsent⟩ := (h.agreesAt hst).none_of_rest hrest
  exact h.place hst hstab hsteer hrunning hunsent (by rw [hsent]; exact hfit)

/-! ### Requests removed -/

theorem eraseP_filter_of_imp {α : Type} {p f : α → Bool} (h : ∀ x, p x = true → f x = true) (l : List α) :
    (l.eraseP p).filter f = (l.filter f).eraseP p := by
  induction l with
  | nil => rfl
  | cons x r ih =>
    by_cases hp : p x = true
    · simp [hp, h x hp]
    · by_cases hf : f x = true <;> simp [hp, hf, ih]

theorem eraseP_filter_of_disjoint {α : Type} {p f : α → Bool} (h : ∀ x, p x = true → f x = false) (l : List α) :
    (l.eraseP p).filter f = l.filter f := by
  induction l with
  | nil => rfl
  | cons x r ih =>
    by_cases hp : p x = true
    · simp [hp, h x hp]
    · by_cases hf : f x = true <;> simp [hp, hf, ih]

/-- The first request of a kind and slot leaves the queue: the other slots keep theirs. -/
theorem Steer.unsentOf_erase (t : Steer) (k : SteerKind) (i j : Slot) :
    ({ t with queue := t.queue.eraseP fun r => r.isFor k i } : Steer).unsentOf j =
      if i = j then (t.unsentOf j).eraseP fun r => decide (r.kind = k) else t.unsentOf j := by
  unfold Steer.unsentOf
  split
  · next hij =>
    subst hij
    simp only []
    rw [eraseP_filter_of_imp fun r hr => by simp_all [SteerRequest.isFor]]
    generalize hl : t.queue.filter (fun r => decide (r.slot = i)) = l
    have hall : ∀ r ∈ l, r.slot = i := fun r hr => by
      rw [← hl, List.mem_filter] at hr
      simpa using hr.2
    clear hl
    induction l with
    | nil => rfl
    | cons r rest ih =>
      have hr : r.isFor k i = decide (r.kind = k) := by simp [SteerRequest.isFor, hall r List.mem_cons_self]
      rw [List.eraseP_cons, List.eraseP_cons, hr, ih fun x hx => hall x (List.mem_cons_of_mem _ hx)]
  · next hij =>
    refine eraseP_filter_of_disjoint (fun r hr => ?_) _
    simp only [SteerRequest.isFor, Bool.and_eq_true, decide_eq_true_eq] at hr
    simp [hr.2, hij]

/-- R27, R149: the DIVERT of an ENTERING record is unsent, and a cancel removes it. -/
theorem Steer.cancelDivert_of_unsent {t : Steer} {i : Slot} {r : SteerRequest} (h : t.unsentOf i = [r])
    (hk : r.kind = .divert) :
    t.cancelDivert i = ({ t with queue := t.queue.eraseP fun r => r.isFor .divert i }, .cancelled) := by
  obtain ⟨hmem, hslot⟩ := Steer.mem_unsentOf.mp (h ▸ List.mem_singleton_self r : r ∈ t.unsentOf i)
  have hany : t.queue.any (fun r => r.isFor .divert i) = true :=
    List.any_eq_true.mpr ⟨r, hmem, by simp [SteerRequest.isFor, hk, hslot]⟩
  unfold Steer.cancelDivert
  rw [if_pos hany]

/-- R149: the DIVERT of an ENTERING record is in flight, and a cancel leaves it. -/
theorem Steer.cancelDivert_of_sent {t : Steer} {i : Slot} {r : SteerRequest} (h : t.unsentOf i = []) (hs : t.sentOf i = some r)
    (hk : r.kind = .divert) : t.cancelDivert i = (t, .inFlight) := by
  refine Steer.cancelDivert_sent (fun q hq ⟨_, hslot⟩ => ?_) ?_
  · have := Steer.mem_unsentOf.mpr ⟨hq, hslot⟩
    rw [h] at this
    cases this
  · show (t.sentOf i).map (·.kind) = some .divert
    rw [hs, Option.map_some, hk]

/-- R27: the DIVERT is cancelled unsent, and the record is AWAKE. -/
theorem State.SteeringMatches.cancelled {s u : State} (h : s.SteeringMatches) {i : Slot} {st : Station} {o : SleepOrigin}
    {t : Steer} (hst : s.station i = some st) (ho : st.state = .entering o) (ht : s.steer.cancelDivert i = (t, .cancelled))
    (hstab : u.stab = (s.setStation i { st with state := .awake }).stab) (hsteer : u.steer = t) : u.SteeringMatches := by
  have hrunning := h.running hst (by rw [ho]; rfl)
  rcases (h.agreesAt hst).entering ho with ⟨r, hunsent, hk, hsent⟩ | ⟨r, hunsent, hsent, hk⟩
  · rw [Steer.cancelDivert_of_unsent hunsent hk] at ht
    cases ht
    refine h.move (State.station_setStation_of hstab) (fun j hij => ?_) (fun _ _ => by rw [hsteer]; rfl) ?_ (by rw [hsteer])
      (Or.inl hrunning) ?_
    · rw [hsteer, Steer.unsentOf_erase, if_neg hij]
    · rw [hsteer]; exact h.shape.withQueue hrunning _
    · have hnone : u.steer.sentOf i = none := by rw [hsteer]; exact hsent
      rw [hsteer, Steer.unsentOf_erase, if_pos rfl, hunsent, ← hsteer, hnone, List.eraseP_cons_of_pos (by simp [hk])]
      exact .rest StationState.atRest_awake
  · rw [Steer.cancelDivert_of_sent hunsent hsent hk] at ht
    cases ht

/-- R27: the DIVERT is in flight, so a RESTORE is placed behind it. -/
theorem State.SteeringMatches.followDivert {s u : State} (h : s.SteeringMatches) {i : Slot} {st : Station} {o : SleepOrigin}
    {t : Steer} (hst : s.station i = some st) (ho : st.state = .entering o) (ht : s.steer.cancelDivert i = (t, .inFlight))
    (hstab : u.stab = (s.setStation i { st with state := .leaving .confirmed none }).stab)
    (hsteer : u.steer = t.withRequest .restore i st) : u.SteeringMatches := by
  rcases (h.agreesAt hst).entering ho with ⟨r, hunsent, hk, hsent⟩ | ⟨r, hunsent, hsent, hk⟩
  · rw [Steer.cancelDivert_of_unsent hunsent hk] at ht
    cases ht
  · rw [Steer.cancelDivert_of_sent hunsent hsent hk] at ht
    cases ht
    refine h.place hst hstab hsteer (h.running hst (by rw [ho]; rfl)) hunsent ?_
    rw [hsent, Option.map_some, hk]
    exact Or.inr (Or.inr ⟨rfl, rfl, rfl, rfl⟩)

/-! ### Requests sent and answered -/

/-- A station's request is in flight in RUNNING alone (R147). -/
theorem Steer.ShapeOk.running_of_sent {t : Steer} (h : t.ShapeOk) {r : SteerRequest} (hr : t.sentRequest = some r) :
    t.mode = .running := by
  obtain ⟨-, -, hmode⟩ := h
  unfold Steer.sentRequest at hr
  cases hf : t.inFlight with
  | none => simp [hf] at hr
  | some f =>
    cases hb : f.body with
    | clearAll => simp [hf, hb] at hr
    | station _ => cases hm : t.mode <;> simp_all

/-- R150: the head of the queue is sent with nothing in flight. -/
theorem State.SteeringMatches.send {s u : State} (h : s.SteeringMatches) {r : SteerRequest} {rest : List SteerRequest}
    {q : BitVec 4} {n : Nat} (hqueue : s.steer.queue = r :: rest) (hrunning : s.steer.mode = .running)
    (hlink : s.steer.link = .up) (hnone : s.steer.inFlight = none) (hst : ∀ i, u.station i = s.station i)
    (hsteer : u.steer = { s.steer with
      queue := rest, inFlight := some { body := .station r, sequence := s.steer.sequence, retries := 0 }
      sequence := q, ackTimer := some n }) : u.SteeringMatches := by
  have hsent : s.steer.sentRequest = none := by simp [Steer.sentRequest, hnone]
  have hnoneOf : ∀ j, s.steer.sentOf j = none := fun j => by simp [Steer.sentOf, hsent]
  have hunsentOf : ∀ j, s.steer.unsentOf j = if r.slot = j then r :: u.steer.unsentOf j else u.steer.unsentOf j := fun j => by
    simp [Steer.unsentOf, hqueue, hsteer, List.filter_cons]
  have hsentOf : ∀ j, u.steer.sentOf j = if r.slot = j then some r else none := fun j => by
    simp [Steer.sentOf, Steer.sentRequest, hsteer, Option.filter]
  refine h.move (i := r.slot) (x := s.station r.slot) (fun j => ?_) (fun j hij => ?_) (fun j hij => ?_) ?_ (by rw [hsteer])
    (Or.inl hrunning) ?_
  · rw [hst]; split
    · next e => rw [e]
    · rfl
  · rw [hunsentOf, if_neg hij]
  · rw [hsentOf, if_neg hij, hnoneOf]
  · obtain ⟨-, hstart, hmode⟩ := h.shape
    rw [hsteer]
    refine ⟨by simp [hlink], hstart, ?_⟩
    simp only [hrunning] at hmode ⊢
    exact ⟨hmode.1, fun f hf => by cases hf; rfl⟩
  · have hagrees := h.agrees r.slot
    rw [hunsentOf, if_pos rfl, hnoneOf] at hagrees
    rw [hsentOf, if_pos rfl]
    obtain ⟨hfit, hunsent, -⟩ := hagrees
    refine ⟨?_, fun x hx => hunsent x (List.mem_cons_of_mem _ hx), fun x hx => by cases hx; exact hunsent r List.mem_cons_self⟩
    rw [Option.map_some]
    rw [List.map_cons, Option.map_none] at hfit
    generalize u.steer.unsentOf r.slot = l at hfit ⊢
    cases hx : (s.station r.slot).map (·.state) with
    | none => rw [hx] at hfit; cases hfit.1
    | some x =>
      rw [hx] at hfit
      cases x <;> simp_all [requestsFit]

/-- R152: an answer leaves the queue as it is, unless it is the NAK of a DIVERT. -/
theorem Steer.unsentOf_resolve (t : Steer) {r : SteerRequest} {v : Verdict} (h : r.kind = .restore ∨ v = .ack) (j : Slot) :
    (t.resolve r v).unsentOf j = t.unsentOf j := by
  rcases h with h | h
  · simp only [Steer.resolve, h]; rfl
  · subst h; cases hk : r.kind <;> (simp only [Steer.resolve, hk]; rfl)

/-- R152: the NAK of a DIVERT removes the unsent RESTORE of its slot. -/
theorem Steer.unsentOf_resolve_nak (t : Steer) {r : SteerRequest} (reason : NakReason) (h : r.kind = .divert) (j : Slot) :
    (t.resolve r (.nak reason)).unsentOf j =
      if r.slot = j then (t.unsentOf j).eraseP fun q => decide (q.kind = .restore) else t.unsentOf j := by
  simp only [Steer.resolve, h]
  exact Steer.unsentOf_erase t .restore r.slot j

theorem Steer.unsentOf_resolve_other (t : Steer) {r : SteerRequest} (v : Verdict) {j : Slot} (hj : r.slot ≠ j) :
    (t.resolve r v).unsentOf j = t.unsentOf j := by
  cases hk : r.kind with
  | restore => exact Steer.unsentOf_resolve t (Or.inl hk) j
  | divert => cases v with
    | ack => exact Steer.unsentOf_resolve t (Or.inr rfl) j
    | nak reason => rw [Steer.unsentOf_resolve_nak t reason hk, if_neg hj]

/-- An answer to a station's request: nothing is in flight, and the record of its slot agrees with what is left. -/
theorem State.SteeringMatches.outcome {s u : State} (h : s.SteeringMatches) {r : SteerRequest} {v : Verdict} {x : Option Station}
    (hr : s.steer.sentRequest = some r) (hsteer : u.steer = s.steer.resolve r v)
    (hst : ∀ j, u.station j = if r.slot = j then x else s.station j)
    (hi : RecordAgrees x ((s.steer.resolve r v).unsentOf r.slot) none) : u.SteeringMatches := by
  have hrunning := h.shape.running_of_sent hr
  have hnone : ∀ j, u.steer.sentOf j = none := fun j => by simp [Steer.sentOf, Steer.sentRequest, hsteer, Steer.resolve]
  refine h.move hst (fun j hij => ?_) (fun j hij => ?_) ?_ (by rw [hsteer]; rfl) (Or.inl hrunning) ?_
  · rw [hsteer, Steer.unsentOf_resolve_other _ _ hij]
  · rw [hnone, Steer.sentOf, hr, Option.filter, if_neg (by simpa using hij)]
  · obtain ⟨-, hstart, hmode⟩ := h.shape
    rw [hsteer]
    refine ⟨by simp [Steer.resolve], hstart, ?_⟩
    simp only [hrunning] at hmode
    simp only [Steer.resolve, hrunning]
    exact ⟨hmode.1, fun f hf => nomatch hf⟩
  · rw [hnone, hsteer]; exact hi

/-- What the record of the slot has while its request is in flight. -/
theorem State.SteeringMatches.inFlight {s : State} (h : s.SteeringMatches) {r : SteerRequest} (hr : s.steer.sentRequest = some r) :
    RecordAgrees (s.station r.slot) (s.steer.unsentOf r.slot) (some r) := by
  have hsent : s.steer.sentOf r.slot = some r := Steer.sentOf_eq_some.mpr ⟨hr, rfl⟩
  exact hsent ▸ h.agrees r.slot

/-- R34, R35: a DIVERT is in flight for an ENTERING record, or for one that has placed its RESTORE behind it. -/
theorem RecordAgrees.divertSent {x : Option Station} {unsent : List SteerRequest} {r : SteerRequest}
    (h : RecordAgrees x unsent (some r)) (hk : r.kind = .divert) : ∃ st, x = some st ∧
      ((∃ o, st.state = .entering o ∧ unsent = []) ∨
        (st.state = .leaving .confirmed none ∧ ∃ q, unsent = [q] ∧ q.kind = .restore)) := by
  have hfit := h.fit
  rw [Option.map_some, hk] at hfit
  cases x with
  | none => cases hfit.2
  | some st =>
    refine ⟨st, rfl, ?_⟩
    rw [Option.map_some] at hfit
    cases hq : st.state <;> rw [hq] at hfit
    case entering o => exact Or.inl ⟨o, rfl, by simpa [requestsFit] using hfit⟩
    case leaving reason cause =>
      obtain ⟨hunsent, rfl, rfl⟩ : unsent.map (·.kind) = [.restore] ∧ reason = .confirmed ∧ cause = none := by
        simpa [requestsFit] using hfit
      exact Or.inr ⟨rfl, List.map_eq_singleton_of hunsent⟩
    all_goals simp [requestsFit] at hfit

/-- R36: a RESTORE is in flight for a LEAVING or RETIRING record, with nothing unsent. -/
theorem RecordAgrees.restoreSent {x : Option Station} {unsent : List SteerRequest} {r : SteerRequest}
    (h : RecordAgrees x unsent (some r)) (hk : r.kind = .restore) : ∃ st, x = some st ∧ unsent = [] ∧
      ((∃ reason cause, st.state = .leaving reason cause) ∨ st.state = .retiring) := by
  have hfit := h.fit
  rw [Option.map_some, hk] at hfit
  cases x with
  | none => cases hfit.2
  | some st =>
    refine ⟨st, rfl, ?_⟩
    rw [Option.map_some] at hfit
    cases hq : st.state <;> rw [hq] at hfit
    case leaving reason cause => exact ⟨by simpa [requestsFit] using hfit, Or.inl ⟨reason, cause, rfl⟩⟩
    case retiring => exact ⟨by simpa [requestsFit] using hfit, Or.inr rfl⟩
    all_goals simp [requestsFit] at hfit

/-- R34: the ACK of a DIVERT at an ENTERING record, which falls asleep. -/
theorem State.SteeringMatches.divertAcked {s u : State} (h : s.SteeringMatches) {r : SteerRequest} {st : Station}
    {o : SleepOrigin} {l : Option LeaseRun} (hr : s.steer.sentRequest = some r)
    (hst : s.station r.slot = some st) (ho : st.state = .entering o) (hsteer : u.steer = s.steer.resolve r .ack)
    (hstab : u.stab = (s.setStation r.slot { st with state := .asleep l }).stab) : u.SteeringMatches := by
  refine h.outcome hr hsteer (State.station_setStation_of hstab) ?_
  have hagrees := h.inFlight hr
  rw [hst] at hagrees
  rcases hagrees.entering ho with ⟨_, _, _, hnone⟩ | ⟨_, hunsent, _, _⟩
  · cases hnone
  · rw [Steer.unsentOf_resolve _ (Or.inr rfl), hunsent]
    exact .rest (StationState.atRest_asleep l)

/-- R34: the ACK of a DIVERT at a record that has placed its RESTORE, which stays LEAVING. -/
theorem State.SteeringMatches.divertAckKept {s u : State} (h : s.SteeringMatches) {r : SteerRequest}
    (hr : s.steer.sentRequest = some r) (hk : r.kind = .divert)
    (hne : ∀ st o, s.station r.slot = some st → st.state ≠ .entering o) (hsteer : u.steer = s.steer.resolve r .ack)
    (hst : ∀ i, u.station i = s.station i) : u.SteeringMatches := by
  refine h.outcome (x := s.station r.slot) hr hsteer (fun j => ?_) ?_
  · rw [hst]
    split
    · next e => rw [e]
    · rfl
  · have hagrees := h.inFlight hr
    obtain ⟨st, hst', hcase⟩ := hagrees.divertSent hk
    rw [hst'] at hagrees ⊢
    rw [Steer.unsentOf_resolve _ (Or.inr rfl)]
    rcases hcase with ⟨o, ho, -⟩ | ⟨hq, q, hunsent, hqk⟩
    · exact absurd ho (hne st o hst')
    · refine ⟨?_, hagrees.unsentOf, fun _ hx => nomatch hx⟩
      rw [hunsent, Option.map_some, hq, List.map_cons, hqk]
      exact Or.inl ⟨rfl, rfl⟩

/-- R35: the NAK of a DIVERT: the record is AWAKE, and its unsent RESTORE is removed. -/
theorem State.SteeringMatches.divertNaked {s u : State} (h : s.SteeringMatches) {r : SteerRequest} {st : Station}
    {reason : NakReason} (hr : s.steer.sentRequest = some r) (hk : r.kind = .divert)
    (hsteer : u.steer = s.steer.resolve r (.nak reason))
    (hstab : u.stab = (s.setStation r.slot { st with state := .awake }).stab) : u.SteeringMatches := by
  refine h.outcome hr hsteer (State.station_setStation_of hstab) ?_
  obtain ⟨_, -, hcase⟩ := (h.inFlight hr).divertSent hk
  rw [Steer.unsentOf_resolve_nak _ _ hk, if_pos rfl]
  rcases hcase with ⟨_, -, hunsent⟩ | ⟨-, q, hunsent, hqk⟩
  · rw [hunsent]; exact .rest StationState.atRest_awake
  · rw [hunsent, List.eraseP_cons_of_pos (by simp [hqk])]; exact .rest StationState.atRest_awake

/-- R36: the outcome of a RESTORE: the record is settled or VACANT. -/
theorem State.SteeringMatches.restored {s u : State} (h : s.SteeringMatches) {r : SteerRequest} {v : Verdict}
    {x : Option Station} (hr : s.steer.sentRequest = some r) (hk : r.kind = .restore)
    (hsteer : u.steer = s.steer.resolve r v) (hst : ∀ j, u.station j = if r.slot = j then x else s.station j)
    (hx : ∀ st, x = some st → st.state.settled = true) : u.SteeringMatches := by
  refine h.outcome hr hsteer hst ?_
  obtain ⟨-, -, hunsent, -⟩ := (h.inFlight hr).restoreSent hk
  rw [Steer.unsentOf_resolve _ (Or.inl hk), hunsent]
  cases x with
  | none => exact .vacant
  | some st => exact .rest (StationState.atRest_of_settled (hx st rfl))

/-! ### Starts, stops and the teardown (R44, R157 to R161) -/

/-- STEER without the requests of one slot. -/
def Steer.without (t : Steer) (i : Slot) : Steer :=
  { t with
    queue := t.queue.filter fun r => decide (r.slot ≠ i)
    inFlight := if (t.sentOf i).isSome then none else t.inFlight
    ackTimer := if (t.sentOf i).isSome then none else t.ackTimer }

theorem Steer.unsentOf_without (t : Steer) (i j : Slot) :
    (t.without i).unsentOf j = if i = j then [] else t.unsentOf j := by
  unfold Steer.unsentOf Steer.without
  rw [List.filter_filter]
  split
  · next hij => subst hij; simp
  · next hij =>
    refine List.filter_congr fun r _ => ?_
    by_cases hr : r.slot = j
    · simp [hr, Ne.symm hij]
    · simp [hr]

theorem Steer.sentOf_without (t : Steer) (i j : Slot) :
    (t.without i).sentOf j = if i = j then none else t.sentOf j := by
  cases hi : t.sentOf i with
  | none =>
    have hflight : (t.without i).inFlight = t.inFlight := by simp [Steer.without, hi]
    have hsame : (t.without i).sentOf j = t.sentOf j := by unfold Steer.sentOf Steer.sentRequest; rw [hflight]
    rw [hsame]
    split
    · next hij => rw [← hij, hi]
    · rfl
  | some r =>
    obtain ⟨hr, hslot⟩ := Steer.sentOf_eq_some.mp hi
    have hflight : (t.without i).inFlight = none := by simp [Steer.without, hi]
    have hnone : (t.without i).sentOf j = none := by unfold Steer.sentOf Steer.sentRequest; rw [hflight]; rfl
    rw [hnone]
    split
    · rfl
    · next hij => rw [Steer.sentOf, hr, Option.filter, hslot, if_neg (by simpa using hij)]

/-- R44: the teardown at one record: its requests are gone, and it is settled or VACANT. -/
theorem State.SteeringMatches.tornDown {s u : State} (h : s.SteeringMatches) {i : Slot} {x : Option Station}
    (hst : ∀ j, u.station j = if i = j then x else s.station j) (hsteer : u.steer = s.steer.without i)
    (hrunning : s.steer.mode = .running) (hx : ∀ st, x = some st → st.state.settled = true) : u.SteeringMatches := by
  refine h.move hst (fun j hij => ?_) (fun j hij => ?_) ?_ (by rw [hsteer]; rfl) (Or.inl hrunning) ?_
  · rw [hsteer, Steer.unsentOf_without, if_neg hij]
  · rw [hsteer, Steer.sentOf_without, if_neg hij]
  · obtain ⟨htimer, hstart, hmode⟩ := h.shape
    rw [hsteer]
    simp only [hrunning] at hmode
    simp only [Steer.ShapeOk, Steer.without, hrunning]
    refine ⟨?_, hrunning ▸ hstart, hmode.1, fun f hf => ?_⟩
    · split
      · simp
      · exact htimer
    · split at hf
      · cases hf
      · exact hmode.2 f hf
  · rw [hsteer, Steer.unsentOf_without, Steer.sentOf_without, if_pos rfl, if_pos rfl]
    cases x with
    | none => exact .vacant
    | some st => exact .rest (StationState.atRest_of_settled (hx st rfl))

/-- R160: the stop, once every record is settled. -/
theorem State.SteeringMatches.stop {s u : State} (h : s.SteeringMatches) {q q' : BitVec 4} {n : Nat}
    (hrunning : s.steer.mode = .running) (hsettled : ∀ i st, s.station i = some st → st.state.settled = true)
    (hst : ∀ i, u.station i = s.station i) (hsteer : u.steer = { s.steer with
      mode := .stopping, link := .up, queue := [], inFlight := some { body := .clearAll, sequence := q, retries := 0 }
      ackTimer := some n, sequence := q' }) : u.SteeringMatches := by
  rw [State.steeringMatches_iff]
  obtain ⟨-, hstart, -⟩ := h.shape
  refine ⟨?_, fun _ i st hi => hsettled i st (hst i ▸ hi), fun i => ?_⟩
  · rw [hsteer]
    refine ⟨by simp, fun hd => ?_, rfl, rfl, rfl⟩
    rw [hrunning] at hstart
    cases hstart hd
  · have hunsent : u.steer.unsentOf i = [] := by rw [hsteer]; rfl
    have hsent : u.steer.sentOf i = none := by rw [hsteer]; rfl
    rw [hst, hunsent, hsent]
    cases hi : s.station i with
    | none => exact .vacant
    | some st => exact .rest (StationState.atRest_of_settled (hsettled i st hi))

/-- After a reset STEER is stopped, and every record is VACANT. -/
theorem State.SteeringMatches.of_reset {s : State} (hst : ∀ i, s.station i = none) {q : BitVec 4}
    (hsteer : s.steer = { Steer.reset with sequence := q }) : s.SteeringMatches := by
  rw [State.steeringMatches_iff]
  refine ⟨?_, fun _ i st hi => ?_, fun i => ?_⟩
  · rw [hsteer]
    exact ⟨by simp [Steer.reset], fun _ => rfl, rfl, rfl, rfl⟩
  · rw [hst] at hi; cases hi
  · have hunsent : s.steer.unsentOf i = [] := by rw [hsteer]; rfl
    have hsent : s.steer.sentOf i = none := by rw [hsteer]; rfl
    rw [hst, hunsent, hsent]
    exact .vacant

end Sys2Proof.Machine
end

section
/-! PROOF. The small events a command is made of: `State.Effect` says once what the part can do, and every command is a chain of them. What an invariant needs of each event is then said once per event. -/

namespace Sys2Proof.Machine

/-- The command passes the checks at CMDE whose outcome its event relies on (R169): what `State.ChecksPassed` says of
a command marked as checked. -/
def State.PassesChecks (s : State) (c : Memory) : Prop :=
  (commandCode c = 0x01#8 → createChecks s c = none) ∧ (commandCode c = 0x02#8 → setTemplateChecks s c = none) ∧
    (commandCode c = 0x20#8 → defineChecks s c = none)

/-- A state of a record other than WAKING. -/
def StationState.notWaking (q : StationState) : Prop := ∀ cause held, q ≠ .waking cause held

/-- Neither the state a record leaves nor the one it enters is WAKING, and the new one has its template and a lease
of at least a second. -/
def Station.MayBecome (st : Station) (q : StationState) : Prop :=
  st.state.notWaking ∧ q.notWaking ∧
    (q.needsTemplate = true → st.state.needsTemplate = true ∨ st.template.isSome = true) ∧
    ∀ l, q.leaseRemaining = some l → 1 ≤ l.toNat

/-- One small event of the part. A change of STEER comes together with the change of the record it belongs to, and says
that it keeps the two in agreement. -/
inductive State.Effect (s : State) : State → Prop
  | steering (t : Steer) : s.SteersTo { s with steer := t } → Effect s { s with steer := t }
  | outputs (o : Outputs) : Effect s { s with out := o }
  | post (p : Post) : Effect s { s with nq := s.nq.post p }
  | takeNotice : Effect s { s with nq := s.nq.dropHead }
  | age (n : Nat) :
    Effect s { s with nq := { s.nq with queue := s.nq.queue.map fun x => { x with age := saturate8 x.age n } } }
  | noticeOverrun (b : Bool) : Effect s { s with nq := { s.nq with overrun := b } }
  | commandOverrun (b : Bool) : Effect s { s with cmde := { s.cmde with overrun := b } }
  | latch : Effect s { s with cmde := { s.cmde with engine := .busy s.mport.commandArea .latched } }
  | progress (c : Memory) (p q : Progress) : s.cmde.engine = .busy c q →
    (p = .checked → q = .checked ∨ s.PassesChecks c) → Effect s (s.setProgress c p)
  | complete (c : Memory) (r : Reply) : Effect s (s.complete c r)
  | port (run int config name : Bool) (issued : List PortEvent) (spi : Option SpiTransaction) :
    Effect s { s with mport := { s.mport with
      run := run, intEnable := int, configRefused := config, nameWriteRefused := name, issued := issued, spi := spi } }
  | configure (c : Settings) : (s.mport.settings.InRange → c.InRange) →
    (c.partAddress = s.mport.settings.partAddress ∨ s.findAddress c.partAddress = none) →
    Effect s { s with mport := { s.mport with settings := c } }
  | storeCommand (a : Nat) (data : List Byte) :
    Effect s { s with mport := { s.mport with commandArea := Memory.writeBytes s.mport.commandArea a data } }
  | jobs (answers : List AnswerJob) (acks : List AckJob) :
    Effect s { s with resp := { s.resp with answerJobs := answers, ackJobs := acks } }
  | claim (b : Fin 8) (frame : List Byte) (p : Port) (g : Segment) : lowest (fun b => b.isNone) s.resp.buffers = some b →
    s.emit.size < Config.emissionCapacity →
    Effect s { s with
      emit := { s.emit with waiting := s.emit.waiting ++ [{ kind := .answer b, port := p, segment := g }] }
      resp := { s.resp with buffers := tset s.resp.buffers b (some frame) } }
  | withdraw (i : Slot) (a : Address) : Effect s (s.withdrawWakes i a)
  | send (x : Entry) (rest : List Entry) (w : Transfer) : s.emit.sending = none → s.emit.waiting = x :: rest →
    Effect s { s with emit := { sending := some (x, w), waiting := rest } }
  | unsent (x : Entry) (rest : List Entry) : s.emit.sending = none → s.emit.waiting = x :: rest →
    s.entryBytes x.kind = none → Effect s { s with emit := { sending := none, waiting := rest } }
  | entryEnds (x : Entry) (e : Emit) : s.emit.entries.Perm (x :: e.entries) →
    Effect s ({ s with emit := e }.freeResource x.kind)
  | note (i : Slot) (st : Station) (q : Option Half) (ack : Option (AckCode × Half)) (answers wakes shed : Half) :
    s.station i = some st → Effect s (s.setStation i { st with
      lastSequence := q, lastAck := ack, answersSent := answers, wakesBegun := wakes, framesShed := shed })
  | restate (i : Slot) (st : Station) (q : StationState) (t : Steer) : s.station i = some st → st.MayBecome q →
    s.SteersTo { s.setStation i { st with state := q } with steer := t } →
    Effect s { s.setStation i { st with state := q } with steer := t }
  | seconds (n : Nat) : Effect s (s.passSeconds n)
  | enrol (c : Memory) (i : Slot) : (s.ChecksPassed → createChecks s c = none) →
    addressArgument c ≠ s.mport.settings.partAddress → s.findAddress (addressArgument c) = none → s.station i = none →
    Effect s (s.setStation i (newStation c))
  | template (i : Slot) (st : Station) (t : Option (List Byte)) : s.station i = some st →
    st.state.templateMayChange = true → (s.ChecksPassed → ∀ bytes, t = some bytes → 60 ≤ bytes.length ∧ bytes.length ≤ 128) →
    Effect s (s.setStation i { st with template := t })
  | addIdentifier (i : Slot) (st : Station) (id : Identifier) (flag : Bool) : s.station i = some st →
    mapHolds s.idmap id st.segment = false → st.identifiers.length < Config.listCapacity →
    s.idmap.length < Config.mapCapacity → Effect s (s.addIdentifier i st id flag)
  | removeIdentifier (i : Slot) (st : Station) (id : Identifier) : s.station i = some st →
    id ∈ st.identifiers.map (·.identifier) → Effect s (s.removeIdentifier i st id)
  | attachRule (i : Slot) (st : Station) (n : RuleNumber) : s.station i = some st →
    st.rules.length < Config.listCapacity → Effect s (s.attachRule i st n)
  | detachRule (i : Slot) (st : Station) (n : RuleNumber) : s.station i = some st → Effect s (s.detachRule i st n)
  | replaceRule (n : RuleNumber) (r : Rule) : (s.ChecksPassed → ∀ b, r.body = some b → spansValid b.spans = true) →
    Effect s { s with rstore := tset s.rstore n r }
  | vacate (i : Slot) (st : Station) (t : Steer) : s.station i = some st → st.state.notWaking →
    s.SteersTo { s.vacate i st with steer := t } → Effect s { s.vacate i st with steer := t }
  | wake (i : Slot) (st : Station) (l : Option LeaseRun) (cause : WakeCause) : s.station i = some st →
    st.state = .asleep l → Effect s (s.wakeUp i st cause)
  | hold (i : Slot) (st : Station) (cause : WakeCause) (b : Fin 16) (bytes : List Byte) : s.station i = some st →
    st.state = .waking cause none → s.hold[b.val] = .free →
    Effect s ({ s with hold := tset s.hold b (.reserved bytes) }.setStation i { st with state := .waking cause (some b) })
  | retry (i : Slot) (st : Station) (x : WakingContext) : s.station i = some st → s.wake[i.val] = some x →
    st.wakeAttempts < s.mport.settings.wakeAttemptLimit.toNat →
    Effect s ((s.attempt i st x.address).startInterval i x.address)
  | units (n : Nat) : Effect s (s.passUnits n)
  | endWaking (i : Slot) (st : Station) (cause : WakeCause) (held : Option (Fin 16)) (q : StationState) (t : Steer) :
    s.station i = some st → st.state = .waking cause held → q.notWaking → q.leaseRemaining = none →
    s.SteersTo { s.setStation i { st with state := q } with steer := t } →
    Effect s { ((s.cancelWaking i).discardHeld held).setStation i { st with state := q } with steer := t }
  | releaseWaking (i : Slot) (st : Station) (cause : WakeCause) (b : Fin 16) (q : StationState) (t : Steer) :
    s.station i = some st → st.state = .waking cause (some b) → s.emit.size < Config.emissionCapacity → q.notWaking →
    q.leaseRemaining = none → s.SteersTo { s.setStation i { st with state := q } with steer := t } →
    Effect s { s.setStation i { st with state := q } with
      steer := t
      wake := tset s.wake i none
      emit := { s.emit with waiting := s.emit.waiting ++ [{ kind := .held b, port := st.port, segment := st.segment }] }
      hold := match s.hold[b.val] with
        | .reserved bytes => tset s.hold b (.queued bytes)
        | .free | .queued _ => s.hold }
  | dropContext (i : Slot) : (s.station i).bind Station.wakingAddress = none → Effect s (s.cancelWaking i)
  | startArrival (j : Fin 4) : s.icls.slots[j.val] = .free → s.icls.arriving = none →
    Effect s { s with icls := s.icls.setSlot j .arriving }
  | finishArrival (j : Fin 4) (a : Arrived) : s.icls.slots[j.val] = .arriving →
    Effect s { s with icls := { s.icls.setSlot j (.received a) with arrivals := s.icls.arrivals ++ [j] } }
  | passTag (j : Fin 4) (rest : List (Fin 4)) (f : Frame) : s.icls.arrivals = j :: rest →
    Effect s { s with icls := s.icls.setSlot j (.unclassified f) }
  | goOn (c : Option Classification) : Effect s { s with icls := { s.icls with current := c } }
  | discard (j : Fin 4) (rest : List (Fin 4)) : s.icls.arrivals = j :: rest → Effect s (s.endFrame j .free)
  | present (p : Presented) : p.frame = none → Effect s { s with presented := s.presented ++ [p] }
  | presentTrigger (j : Fin 4) (rest : List (Fin 4)) (f : Frame) (p : Presented) : s.icls.arrivals = j :: rest →
    p.frame = some j → Effect s ({ s with presented := s.presented ++ [p] }.endFrame j (.triggered f))
  | passFrame (j : Fin 4) (rest : List (Fin 4)) (f : Frame) (p : Port) (g : Segment) : s.icls.arrivals = j :: rest →
    s.emit.size < Config.emissionCapacity →
    Effect s (({ s with emit := { s.emit with
      waiting := s.emit.waiting ++ [{ kind := .pass j, port := p, segment := g }] } } : State).endFrame j (.passing f))
  | takePresented (i : Slot) (e : Presented) : s.nextPresented i = some e → e.frame = none → Effect s (s.popPresented i)
  | dropTrigger (i : Slot) (e : Presented) (j : Fin 4) : s.nextPresented i = some e → e.frame = some j →
    Effect s ((s.popPresented i).freeIntake j)
  | passTrigger (i : Slot) (e : Presented) (j : Fin 4) (f : Frame) (p : Port) (g : Segment) :
    s.nextPresented i = some e → e.frame = some j → s.emit.size < Config.emissionCapacity →
    Effect s { s.popPresented i with
      emit := { s.emit with waiting := s.emit.waiting ++ [{ kind := .pass j, port := p, segment := g }] }
      icls := { s.icls with slots := tset s.icls.slots j (.passing f) } }
  | hardReset : Effect s s.hardReset
  | softReset : Effect s s.softReset

/-- A chain of small events. -/
def State.Effects (s u : State) : Prop := Relation.ReflTransGen State.Effect s u

theorem State.Effects.refl (s : State) : s.Effects s := Relation.ReflTransGen.refl

theorem State.Effect.one {s u : State} (h : s.Effect u) : s.Effects u := Relation.ReflTransGen.single h

theorem State.Effects.trans {s u v : State} (h : s.Effects u) (h' : u.Effects v) : s.Effects v :=
  Relation.ReflTransGen.trans h h'

theorem State.Effects.step {s u v : State} (h : s.Effects u) (h' : u.Effect v) : s.Effects v :=
  Relation.ReflTransGen.tail h h'

/-- What every small event keeps, a chain keeps. -/
theorem State.Effects.keeps {P : State → Prop} (hP : ∀ s u, State.Effect s u → P s → P u) {s u : State} (h : s.Effects u)
    (hs : P s) : P u := by
  induction h with
  | refl => exact hs
  | tail _ hlast ih => exact hP _ _ hlast ih

end Sys2Proof.Machine
end

section
/-! PROOF. The operations of the blocks as chains of small events. -/

namespace Sys2Proof.Machine

/-! ### Records -/

@[simp] theorem StationState.notWaking_awake : StationState.awake.notWaking := by simp [StationState.notWaking]
@[simp] theorem StationState.notWaking_entering (o : SleepOrigin) : (StationState.entering o).notWaking := by
  simp [StationState.notWaking]
@[simp] theorem StationState.notWaking_asleep (l : Option LeaseRun) : (StationState.asleep l).notWaking := by
  simp [StationState.notWaking]
@[simp] theorem StationState.notWaking_leaving (r : LeaveReason) (c : Option WakeCause) :
    (StationState.leaving r c).notWaking := by simp [StationState.notWaking]
@[simp] theorem StationState.notWaking_lapsed : StationState.lapsed.notWaking := by simp [StationState.notWaking]
@[simp] theorem StationState.notWaking_retiring : StationState.retiring.notWaking := by simp [StationState.notWaking]

/-- A state without a lease that a record with a template, or one that needs none, may enter. -/
theorem Station.mayBecome_of {st : Station} {q : StationState} (hst : st.state.notWaking) (hq : q.notWaking)
    (ht : st.state.needsTemplate = true ∨ st.template.isSome = true ∨ q.needsTemplate = false)
    (hl : q.leaseRemaining = none) : st.MayBecome q := by
  refine ⟨hst, hq, fun hn => ?_, fun l hl' => by rw [hl] at hl'; cases hl'⟩
  rcases ht with ht | ht | ht
  · exact Or.inl ht
  · exact Or.inr ht
  · rw [ht] at hn; cases hn

/-- R24, R34: a record with a template falls asleep with a lease that starts now. -/
theorem Station.mayBecome_asleep {st : Station} (e : Half) (hst : st.state.notWaking)
    (ht : st.state.needsTemplate = true) : st.MayBecome (.asleep (startLease e)) := by
  refine ⟨hst, StationState.notWaking_asleep _, fun _ => Or.inl ht, fun l h => ?_⟩
  unfold startLease at h
  split at h
  · cases h
  · next he =>
    simp only [StationState.leaseRemaining, Option.some.injEq] at h
    subst h
    have : e.toNat ≠ 0 := fun h0 => he (BitVec.eq_of_toNat_eq (by simpa using h0))
    omega

theorem State.effects_post (s : State) (k : NoticeKind) (d : Detail) : s.Effects (s.post k d) :=
  (State.Effect.post _).one

theorem State.effects_postFor (s : State) (i : Slot) (k : NoticeKind) (d : Detail) : s.Effects (s.postFor i k d) :=
  (State.Effect.post _).one

theorem State.effects_updateStation_note (s : State) (i : Slot) (f : Station → Station)
    (hf : ∀ st, ∃ q ack a w d, f st = { st with
      lastSequence := q, lastAck := ack, answersSent := a, wakesBegun := w, framesShed := d }) :
    s.Effects (s.updateStation i f) := by
  cases h : s.station i with
  | none => simpa [State.updateStation, h] using State.Effects.refl s
  | some st =>
    obtain ⟨q, ack, a, w, d, hst⟩ := hf st
    rw [State.updateStation_eq f h, hst]
    exact (State.Effect.note i st q ack a w d h).one

theorem State.effects_raiseShed (s : State) (i : Slot) : s.Effects (s.raiseShed i) :=
  s.effects_updateStation_note i _ fun _ => ⟨_, _, _, _, _, rfl⟩

/-- A record enters a state, and STEER stays. -/
theorem State.effects_setStationState {s : State} {i : Slot} {st : Station} {q : StationState} (h : s.station i = some st)
    (hq : st.MayBecome q) (hsteer : s.SteersTo (s.setStation i { st with state := q })) :
    s.Effects (s.setStationState i q) := by
  rw [State.setStationState_eq h]
  exact (State.Effect.restate i st q s.steer h hq hsteer).one

/-- A record enters a state and STEER changes with it. -/
theorem State.effects_restate {s u : State} {i : Slot} {st : Station} {q : StationState} {t : Steer}
    (h : s.station i = some st) (hq : st.MayBecome q) (hu : u = { s.setStation i { st with state := q } with steer := t })
    (hsteer : s.SteersTo u) : s.Effects u := by
  subst hu
  exact (State.Effect.restate i st q t h hq hsteer).one

/-- A record at rest and in RUNNING enters a state and places its request. -/
theorem State.effects_setStationState_place {s : State} {i : Slot} {st st' : Station} {q : StationState} {k : SteerKind}
    (h : s.station i = some st) (hq : st.MayBecome q) (hrest : st.state.atRest)
    (hrunning : s.SteeringMatches → s.steer.mode = .running) (hfit : requestsFit (some q) [k] none)
    (hid : s.steer.withRequest k i st' = s.steer.withRequest k i st) : s.Effects ((s.setStationState i q).place k i st') := by
  rw [State.setStationState_eq h, State.place_eq]
  refine State.effects_restate (t := s.steer.withRequest k i st) h hq ?_ fun hs =>
    hs.placeAtRest h rfl hid (hrunning hs) hrest hfit
  rw [State.setStation_steer, hid]

/-- A record other than one at rest and settled is one in RUNNING. -/
theorem State.running_of_unsettled {s : State} {i : Slot} {st : Station} (h : s.station i = some st)
    (hq : st.state.settled = false) : s.SteeringMatches → s.steer.mode = .running := fun hs => hs.running h hq

theorem State.effects_decideAck (s : State) (i : Slot) (c : AckCode) (g q : Half) : s.Effects (s.decideAck i c g q) := by
  cases h : s.station i with
  | none => simpa [State.decideAck, h] using State.Effects.refl s
  | some st =>
    rw [State.decideAck_eq h]
    exact (State.Effect.note i st _ _ _ _ _ h).one.step (.jobs _ _)

/-! ### Awake confirmations (2.3) -/

/-- R26, R40 to R43: a WAKING record ends its waking and places its RESTORE. -/
theorem State.steersTo_endWaking {s u : State} {i : Slot} {st : Station} {cause : WakeCause} {held : Option (Fin 16)}
    {q : StationState} (h : s.station i = some st) (hw : st.state = .waking cause held)
    (hfit : requestsFit (some q) [.restore] none) (hstab : u.stab = (s.setStation i { st with state := q }).stab)
    (hsteer : u.steer = s.steer.withRequest .restore i st) : s.SteersTo u := fun hs =>
  hs.placeAtRest h hstab hsteer (hs.running h (by rw [hw]; rfl)) (by rw [hw]; exact StationState.atRest_waking _ _) hfit

theorem requestsFit_leaving_restore (r : LeaveReason) (c : Option WakeCause) :
    requestsFit (some (.leaving r c)) [.restore] none := Or.inl ⟨rfl, rfl⟩

theorem requestsFit_retiring_restore : requestsFit (some .retiring) [.restore] none := Or.inl ⟨rfl, rfl⟩

theorem State.effects_confirmWaking {s : State} {i : Slot} {st : Station} {cause : WakeCause} {held : Option (Fin 16)}
    (h : s.station i = some st) (hw : st.state = .waking cause held) : s.Effects (s.confirmWaking i st cause held) := by
  have hwithdraw : s.Effects (s.withdrawWakes i st.address) := (State.Effect.withdraw i st.address).one
  have hfit := requestsFit_leaving_restore .confirmed (some cause)
  rw [State.confirmWaking_eq h]
  cases held with
  | none =>
    exact hwithdraw.step (State.Effect.endWaking (s := s.withdrawWakes i st.address) i st cause none
      (.leaving .confirmed (some cause)) (s.steer.withRequest .restore i st) h hw (by simp) rfl
      (State.steersTo_endWaking h hw hfit rfl rfl))
  | some b =>
    simp only []
    split
    · next hroom =>
      exact hwithdraw.step (State.Effect.releaseWaking (s := s.withdrawWakes i st.address) i st cause b
        (.leaving .confirmed (some cause)) (s.steer.withRequest .restore i st) h hw hroom (by simp) rfl
        (State.steersTo_endWaking h hw hfit rfl rfl))
    · have hend := State.Effect.endWaking (s := s.withdrawWakes i st.address) i st cause (some b)
        (.leaving .confirmed (some cause)) (s.steer.withRequest .restore i st) h hw (by simp) rfl
        (State.steersTo_endWaking h hw hfit rfl rfl)
      have hshed := State.Effect.note (s := { ((s.withdrawWakes i st.address).cancelWaking i).discardHeld (some b) with
        steer := s.steer.withRequest .restore i st }.setStation i { st with state := .leaving .confirmed (some cause) }) i
        { st with state := .leaving .confirmed (some cause) } st.lastSequence st.lastAck st.answersSent st.wakesBegun
        (saturate16 st.framesShed) (State.setStation_station_self _ _ _)
      have hall := (hwithdraw.step hend).step hshed
      rw [State.setStation_setStation] at hall
      exact hall

theorem State.effects_confirmEntering {s : State} {i : Slot} {st : Station} {o : SleepOrigin}
    (h : s.station i = some st) (ho : st.state = .entering o) : s.Effects (s.confirmEntering i st) := by
  have hbecome : ∀ q : StationState, q.notWaking → q.leaseRemaining = none → st.MayBecome q := fun q hq hl =>
    Station.mayBecome_of (by simp [ho]) hq (Or.inl (by simp [ho, StationState.needsTemplate])) hl
  unfold State.confirmEntering
  split
  · next t ht =>
    rw [State.setStationState_eq (st := st) (by exact h)]
    exact (State.effects_restate (t := t) h (hbecome .awake (by simp) rfl) rfl
      fun hs => hs.cancelled h ho ht rfl rfl).trans (State.effects_postFor _ _ _ _)
  · next t ht =>
    rw [State.setStationState_eq (st := st) (by exact h), State.place_eq]
    exact State.effects_restate (t := t.withRequest .restore i st) h (hbecome (.leaving .confirmed none) (by simp) rfl) rfl
      fun hs => hs.followDivert h ho ht rfl rfl

theorem State.effects_confirmAwake (s : State) (i : Slot) : s.Effects (s.confirmAwake i) := by
  unfold State.confirmAwake
  split
  · exact .refl s
  · next st h =>
    split
    · next hst =>
      exact State.effects_setStationState_place h (Station.mayBecome_of (by simp [hst]) (by simp)
        (Or.inl (by simp [hst, StationState.needsTemplate])) rfl) (by rw [hst]; exact StationState.atRest_asleep _)
        (State.running_of_unsettled h (by rw [hst]; rfl)) (requestsFit_leaving_restore _ _) rfl
    · next hst => exact State.effects_confirmWaking h hst
    · next hst => exact State.effects_confirmEntering h hst
    · next cause hst =>
      refine State.effects_setStationState h (Station.mayBecome_of (by simp [hst]) (by simp)
        (Or.inl (by simp [hst, StationState.needsTemplate])) rfl) fun hs =>
          hs.setStation h rfl rfl ⟨rfl, rfl, rfl⟩ (fun a b hf => ?_) fun hset => ?_
      · rw [hst] at hf
        rcases hf with hf | hf | ⟨-, -, hr, -⟩
        · exact Or.inl hf
        · exact Or.inr (Or.inl hf)
        · cases hr
      · rw [hst] at hset; cases hset
    · exact .refl s
    · next hst =>
      exact (State.effects_setStationState (q := .awake) h
        (Station.mayBecome_of (by simp [hst]) (by simp) (Or.inr (Or.inr rfl)) rfl)
        fun hs => hs.setRest h rfl rfl ⟨rfl, rfl, rfl⟩ (by rw [hst]; exact StationState.atRest_lapsed)
          StationState.atRest_awake fun _ => rfl).trans (State.effects_postFor _ _ _ _)
    · exact .refl s
    · exact .refl s

/-! ### Sleep requests (2.4) -/

theorem State.sleepCheck_none {s : State} {st : Station} (h : s.sleepCheck st = none) :
    s.steer.mode = .running ∧ s.steer.link = .up ∧ st.template.isSome = true := by
  unfold State.sleepCheck at h
  split at h
  · cases h
  · next hm =>
    split at h
    · cases h
    · next hl =>
      split at h
      · cases h
      · next ht => exact ⟨not_not.mp hm, not_not.mp hl, by simpa [Option.isSome_iff_ne_none] using ht⟩

theorem State.effects_enterSleep {s : State} {i : Slot} {st : Station} {o : SleepOrigin} (h : s.station i = some st)
    (hst : st.state.settled = true) (hc : s.sleepCheck st = none) : s.Effects (s.enterSleep i st o) := by
  obtain ⟨hrunning, -, htemplate⟩ := State.sleepCheck_none hc
  have hnot : st.state.notWaking := fun cause held hw => by rw [hw] at hst; cases hst
  exact State.effects_setStationState_place h (Station.mayBecome_of hnot (by simp) (Or.inr (Or.inl htemplate)) rfl)
    (StationState.atRest_of_settled hst) (fun _ => hrunning) (Or.inl ⟨rfl, rfl⟩) rfl

/-- R29 at a record that is AWAKE by now; `st` is what the record was when its template was read. -/
theorem State.effects_sleepFromAwake {s : State} {i : Slot} {st : Station} (h : s.station i = some { st with state := .awake })
    (q l : Half) : s.Effects (s.sleepFromAwake i st q l) := by
  unfold State.sleepFromAwake
  split
  · exact State.effects_decideAck _ _ _ _ _
  · next hc =>
    obtain ⟨hrunning, -, htemplate⟩ := State.sleepCheck_none hc
    exact State.effects_setStationState_place h (Station.mayBecome_of (by simp) (by simp) (Or.inr (Or.inl htemplate)) rfl)
      StationState.atRest_awake (fun _ => hrunning) (Or.inl ⟨rfl, rfl⟩) rfl

/-- R31: a record ASLEEP starts its lease anew. -/
theorem State.effects_restartLease {s : State} {i : Slot} {st : Station} {l : Option LeaseRun} (h : s.station i = some st)
    (hst : st.state = .asleep l) (e : Half) : s.Effects (s.setStationState i (.asleep (startLease e))) :=
  State.effects_setStationState h (Station.mayBecome_asleep _ (by simp [hst]) (by simp [hst, StationState.needsTemplate]))
    fun hs => hs.setRest h rfl rfl ⟨rfl, rfl, rfl⟩ (by rw [hst]; exact StationState.atRest_asleep _)
      (StationState.atRest_asleep _) fun hset => by rw [hst] at hset; cases hset

theorem State.effects_sleepAnnounced (s : State) (i : Slot) (q l : Half) : s.Effects (s.sleepAnnounced i q l) := by
  unfold State.sleepAnnounced
  split
  · exact .refl s
  · next st h =>
    split
    · next hst => exact State.effects_sleepFromAwake (by rw [h, ← hst]) q l
    · next hst =>
      have hawake : (s.confirmAwake i).station i = some { st with state := .awake } := by
        simp [State.confirmAwake, h, hst, State.station_of_stab (State.postFor_stab _ _ _ _), State.setStationState_station]
      exact (State.effects_confirmAwake s i).trans (State.effects_sleepFromAwake hawake q l)
    · next hst =>
      exact State.effects_setStationState h (Station.mayBecome_of (by simp [hst]) (by simp)
        (Or.inl (by simp [hst, StationState.needsTemplate])) rfl) fun hs =>
          hs.setStation h rfl rfl ⟨rfl, rfl, rfl⟩ (fun a b hf => by rw [hst] at hf; exact hf)
            fun hset => by rw [hst] at hset; cases hset
    · next hst => exact (State.effects_restartLease h hst _).trans (State.effects_decideAck _ _ _ _ _)
    · exact (State.effects_confirmAwake s i).trans (State.effects_decideAck _ _ _ _ _)
    · exact (State.effects_confirmAwake s i).trans (State.effects_decideAck _ _ _ _ _)
    · exact State.effects_decideAck _ _ _ _ _
    · exact State.effects_decideAck _ _ _ _ _

theorem State.effects_sleepCommanded {s : State} {i : Slot} {st : Station} (h : s.station i = some st) (l : Half) :
    s.Effects (s.sleepCommanded i st l).1 := by
  have henter : st.state.settled = true → s.Effects (match s.sleepCheck st with
      | some refusal => (s, refusal.asResult)
      | none => (s.enterSleep i st (.commanded l), .pending)).1 := fun hst => by
    split
    · exact .refl s
    · next hc => exact State.effects_enterSleep h hst hc
  unfold State.sleepCommanded
  split
  · next hst => exact henter (by rw [hst]; rfl)
  · next hst => exact henter (by rw [hst]; rfl)
  · exact .refl s
  · next hst => exact State.effects_restartLease h hst _
  all_goals exact .refl s

/-! ### Outcomes of requests (2.5) -/

/-- STEER's part of an outcome, with the record as it stands. -/
theorem State.effects_resolve {s : State} {r : SteerRequest} {v : Verdict}
    (hsteer : s.SteersTo { s with steer := s.steer.resolve r v }) : s.Effects { s with steer := s.steer.resolve r v } :=
  (State.Effect.steering _ hsteer).one

/-- An outcome that brings the record of its slot into a new state. -/
theorem State.effects_resolve_setStationState {s : State} {r : SteerRequest} {v : Verdict} {st : Station} {q : StationState}
    (h : s.station r.slot = some st) (hq : st.MayBecome q)
    (hsteer : s.SteersTo { s.setStation r.slot { st with state := q } with steer := s.steer.resolve r v }) :
    s.Effects (({ s with steer := s.steer.resolve r v } : State).setStationState r.slot q) := by
  rw [State.setStationState_eq (s := { s with steer := s.steer.resolve r v }) h]
  exact State.effects_restate h hq rfl hsteer

theorem State.effects_divertAck {s : State} {r : SteerRequest} (hr : s.steer.sentRequest = some r) (hk : r.kind = .divert) :
    s.Effects (({ s with steer := s.steer.resolve r .ack } : State).divertAck r.slot) := by
  have hkept : (∀ st o, s.station r.slot = some st → st.state ≠ .entering o) →
      s.Effects { s with steer := s.steer.resolve r .ack } := fun hne =>
    State.effects_resolve fun hs => hs.divertAckKept hr hk hne rfl fun _ => rfl
  unfold State.divertAck
  split
  · next h => exact hkept fun st o hst => by cases h.symm.trans hst
  · next st h =>
    have hother : (∀ o, st.state ≠ .entering o) → s.Effects { s with steer := s.steer.resolve r .ack } := fun hne =>
      hkept fun st' o hst => by cases hst.symm.trans h; exact hne o
    split
    · next o hst =>
      have hsleep : ∀ e : Half, s.Effects
          (({ s with steer := s.steer.resolve r .ack } : State).setStationState r.slot (.asleep (startLease e))) := fun e =>
        State.effects_resolve_setStationState h (Station.mayBecome_asleep e (by simp [hst])
          (by simp [hst, StationState.needsTemplate])) fun hs => hs.divertAcked hr h hst rfl rfl
      cases o with
      | announced q l => exact ((hsleep _).trans (State.effects_decideAck _ _ _ _ _)).trans (State.effects_postFor _ _ _ _)
      | commanded l => exact (hsleep _).trans (State.effects_postFor _ _ _ _)
    all_goals next hst => exact hother fun o ho => by cases hst.symm.trans ho

theorem State.effects_divertNak {s : State} {r : SteerRequest} (hr : s.steer.sentRequest = some r) (hk : r.kind = .divert)
    (reason : NakReason) :
    s.Effects (({ s with steer := s.steer.resolve r (.nak reason) } : State).divertNak r.slot reason) := by
  have hnot : (∀ st, s.station r.slot = some st →
      (∀ o, st.state ≠ .entering o) ∧ ∀ reason cause, st.state ≠ .leaving reason cause) →
      s.Effects { s with steer := s.steer.resolve r (.nak reason) } := fun hne =>
    State.effects_resolve fun hs => by
      obtain ⟨st, hst, ⟨o, ho, -⟩ | ⟨hq, -⟩⟩ := (hs.inFlight hr).divertSent hk
      · exact absurd ho ((hne st hst).1 o)
      · exact absurd hq ((hne st hst).2 _ _)
  unfold State.divertNak
  split
  · next h => exact hnot fun st hst => by cases h.symm.trans hst
  · next st h =>
    have hwake : st.state.notWaking → s.Effects
        (({ s with steer := s.steer.resolve r (.nak reason) } : State).setStationState r.slot .awake) := fun hst =>
      State.effects_resolve_setStationState h (Station.mayBecome_of hst (by simp) (Or.inr (Or.inr rfl)) rfl)
        fun hs => hs.divertNaked hr hk rfl rfl
    have hother : (∀ o, st.state ≠ .entering o) → (∀ reason cause, st.state ≠ .leaving reason cause) →
        s.Effects { s with steer := s.steer.resolve r (.nak reason) } := fun ho hl =>
      hnot fun st' hst => by cases hst.symm.trans h; exact ⟨ho, hl⟩
    split
    · next o hst =>
      cases o with
      | announced q l =>
        exact ((hwake (by simp [hst])).trans (State.effects_decideAck _ _ _ _ _)).trans (State.effects_postFor _ _ _ _)
      | commanded l => exact (hwake (by simp [hst])).trans (State.effects_postFor _ _ _ _)
    · next hst => exact (hwake (by simp [hst])).trans (State.effects_postFor _ _ _ _)
    all_goals next hst => exact hother (fun o ho => by cases hst.symm.trans ho) fun a b hl => by cases hst.symm.trans hl

theorem State.effects_restoreOutcome {s : State} {r : SteerRequest} (hr : s.steer.sentRequest = some r)
    (hk : r.kind = .restore) (v : Verdict) :
    s.Effects (({ s with steer := s.steer.resolve r v } : State).restoreOutcome r.slot) := by
  have hnot : (∀ st, s.station r.slot = some st → (∀ reason cause, st.state ≠ .leaving reason cause) ∧ st.state ≠ .retiring) →
      s.Effects { s with steer := s.steer.resolve r v } := fun hne =>
    State.effects_resolve fun hs => by
      obtain ⟨st, hst, -, ⟨reason, cause, hq⟩ | hq⟩ := (hs.inFlight hr).restoreSent hk
      · exact absurd hq ((hne st hst).1 reason cause)
      · exact absurd hq (hne st hst).2
  unfold State.restoreOutcome
  split
  · next h => exact hnot fun st hst => by cases h.symm.trans hst
  · next st h =>
    have hsettle : ∀ q : StationState, st.state.notWaking → q.notWaking → q.needsTemplate = false → q.leaseRemaining = none →
        q.settled = true → s.Effects (({ s with steer := s.steer.resolve r v } : State).setStationState r.slot q) :=
      fun q hst hq ht hl hset =>
        State.effects_resolve_setStationState h (Station.mayBecome_of hst hq (Or.inr (Or.inr ht)) hl) fun hs =>
          hs.restored hr hk rfl (State.station_setStation_of rfl) fun _ hx => by cases hx; exact hset
    have hother : (∀ reason cause, st.state ≠ .leaving reason cause) → st.state ≠ .retiring →
        s.Effects { s with steer := s.steer.resolve r v } := fun hl hret =>
      hnot fun st' hst => by cases hst.symm.trans h; exact ⟨hl, hret⟩
    split
    · next hst => exact (hsettle .awake (by simp [hst]) (by simp) rfl rfl rfl).trans (State.effects_postFor _ _ _ _)
    · next hst => exact hsettle .lapsed (by simp [hst]) (by simp) rfl rfl rfl
    · next hst =>
      exact (State.Effect.vacate (s := s) r.slot st (s.steer.resolve r v) h (by simp [hst]) fun hs =>
        hs.restored (x := none) hr hk rfl (fun j => State.vacate_station s r.slot j st) fun _ hx => nomatch hx).one
    all_goals next hst => exact hother (fun a b hl => by cases hst.symm.trans hl) fun hret => by cases hst.symm.trans hret

theorem State.effects_stationOutcome {s : State} {r : SteerRequest} (hr : s.steer.sentRequest = some r) (v : Verdict) :
    s.Effects (s.stationOutcome r v) := by
  unfold State.stationOutcome
  split
  · next hk => exact State.effects_divertAck hr hk
  · next hk => exact State.effects_divertNak hr hk _
  · next hk => exact State.effects_restoreOutcome hr hk _
  · next hk => exact (State.effects_restoreOutcome hr hk _).step (.post _)

/-! ### Wakings (2.6, 7) -/

theorem State.effects_holdFrame {s : State} {i : Slot} {st : Station} {cause : WakeCause} (h : s.station i = some st)
    (hst : st.state = .waking cause none) (bytes : List Byte) : s.Effects (s.holdFrame i cause bytes) := by
  unfold State.holdFrame
  split
  · next b hb =>
    have hfree : s.hold[b.val] = .free := by simpa using (lowest_some hb).1
    rw [State.setStationState_eq (s := { s with hold := tset s.hold b (.reserved bytes) }) (st := st) h]
    exact (State.Effect.hold i st cause b bytes h hst hfree).one
  · split
    · exact State.effects_postFor _ _ _ _
    all_goals exact .refl s

theorem State.wakeUp_station_self (s : State) (i : Slot) (st : Station) (cause : WakeCause) :
    ∃ st', (s.wakeUp i st cause).station i = some st' ∧ st'.state = .waking cause none := by
  rw [State.wakeUp_eq]
  exact ⟨_, State.setStation_station_self s i _, rfl⟩

theorem State.effects_passOrShed {s : State} {i : Slot} {st : Station} {e : Presented} {j : Fin 4} {f : Frame}
    (he : s.nextPresented i = some e) (hj : e.frame = some j) :
    s.Effects ((s.popPresented i).passOrShed i st j f) := by
  unfold State.passOrShed
  split
  · next t ht =>
    obtain ⟨hroom, rfl⟩ := State.passThrough_some ht
    exact (State.Effect.passTrigger i e j f st.port st.segment he hj hroom).one
  · exact (State.Effect.dropTrigger i e j he hj).one.trans (State.effects_raiseShed _ _)

/-- The frame of a trigger leaves its slot with the event that carried it, before or after the waking begins. -/
theorem State.wakeUp_holdFrame_freeIntake (s : State) (i : Slot) (st : Station) (c : WakeCause) (bytes : List Byte)
    (j : Fin 4) : ((s.wakeUp i st c).holdFrame i c bytes).freeIntake j =
      (((s.freeIntake j).wakeUp i st c).holdFrame i c bytes) := by
  simp only [State.wakeUp_eq, State.holdFrame, State.freeIntake_hold, State.setStation_hold]
  split
  · simp only [State.setStationState, State.updateStation, State.station, State.setStation, State.setRecord, tset_get_self]
    rfl
  · split <;> rfl

theorem State.effects_iclsTrigger {s : State} {i : Slot} {st : Station} {e : Presented} {cause : WakeCause}
    {frame : Option (Fin 4)} (h : s.station i = some st) (he : s.nextPresented i = some e) (hf : e.frame = frame) :
    s.Effects ((s.popPresented i).iclsTrigger i st cause frame) := by
  have hpop : frame = none → s.Effects (s.popPresented i) := fun hn =>
    (State.Effect.takePresented i e he (hf.trans hn)).one
  have hdrop : ∀ j, frame = some j → s.Effects ((s.popPresented i).freeIntake j) := fun j hj =>
    (State.Effect.dropTrigger i e j he (hf.trans hj)).one
  unfold State.iclsTrigger
  split
  · next l hst => exact (hpop rfl).step (.wake i st l cause h hst)
  · next l j hst =>
    simp only []
    rw [State.wakeUp_holdFrame_freeIntake]
    obtain ⟨st', hst', hw⟩ := ((s.popPresented i).freeIntake j).wakeUp_station_self i st cause
    exact ((hdrop j rfl).step (.wake i st l cause h hst)).trans (State.effects_holdFrame hst' hw _)
  · exact hpop rfl
  · exact (hdrop _ rfl).trans (State.effects_raiseShed _ _)
  · exact hpop rfl
  · next j _ _ =>
    split
    · exact State.effects_passOrShed he hf
    · exact hdrop j rfl

theorem State.effects_wakeCommanded {s : State} {i : Slot} {st : Station} (h : s.station i = some st) :
    s.Effects (s.wakeCommanded i st).1 := by
  unfold State.wakeCommanded
  split
  · next l hst => exact (State.Effect.wake i st l _ h hst).one
  all_goals exact .refl s

/-- A waking that ends without its held frame: the state the record enters, the WAKE entries withdrawn. -/
theorem State.effects_exhaustWaking (s : State) (i : Slot) : s.Effects ((s.cancelWaking i).exhaustWaking i) := by
  have hnone : (s.station i).bind Station.wakingAddress = none → s.Effects (s.cancelWaking i) := fun hn =>
    (State.Effect.dropContext i hn).one
  unfold State.exhaustWaking
  rw [State.station_of_stab (State.cancelWaking_stab s i)]
  split
  · next h => exact hnone (by simp [h])
  · next st h =>
    split
    case h_1 cause held hst =>
      have hend := State.Effect.endWaking i st cause held (.leaving .exhausted (some cause))
        (s.steer.withRequest .restore i st) h hst (by simp) rfl
        (State.steersTo_endWaking h hst (requestsFit_leaving_restore _ _) rfl rfl)
      have hstation : (((s.cancelWaking i).discardHeld held).withdrawWakes i st.address).station i = some st := by
        rw [State.station_of_stab (s := s) (by simp), h]
      rw [State.setStationState_eq hstation, State.place_eq]
      have hall := (hend.one.step (.withdraw i st.address)).trans (State.effects_postFor _ i .wakeFailed (.cause cause))
      cases held <;> exact hall
    all_goals next hst => exact hnone (by simp [h, Station.wakingAddress, hst])

theorem State.steersTo_vacate {s : State} {i : Slot} {st : Station} (h : s.station i = some st)
    (hst : st.state.settled = true) : s.SteersTo (s.vacate i st) := fun hs => by
  obtain ⟨hunsent, hsent⟩ := (hs.agreesAt h).none_of_rest (StationState.atRest_of_settled hst)
  refine hs.setRecord (x := none) (fun j => State.vacate_station s i j st) rfl (Or.inr fun _ hx => nomatch hx) ?_
  rw [hunsent, hsent]
  exact .vacant

theorem State.effects_retire {s : State} {i : Slot} {st : Station} (h : s.station i = some st) :
    s.Effects (s.retire i st).1 := by
  unfold State.retire
  split
  · next hst =>
    exact (State.Effect.vacate i st s.steer h (by simp [hst]) (State.steersTo_vacate h (by rw [hst]; rfl))).one
  · next hst =>
    exact (State.Effect.vacate i st s.steer h (by simp [hst]) (State.steersTo_vacate h (by rw [hst]; rfl))).one
  · next hst =>
    exact State.effects_setStationState_place h (Station.mayBecome_of (by simp [hst]) (by simp)
      (Or.inl (by simp [hst, StationState.needsTemplate])) rfl) (by rw [hst]; exact StationState.atRest_asleep _)
      (State.running_of_unsettled h (by rw [hst]; rfl)) requestsFit_retiring_restore rfl
  · next cause held hst =>
    have hend := State.Effect.endWaking i st cause held .retiring (s.steer.withRequest .restore i st) h hst (by simp) rfl
      (State.steersTo_endWaking h hst requestsFit_retiring_restore rfl rfl)
    have hstation : (((s.cancelWaking i).withdrawWakes i st.address).discardHeld held).station i = some st := by
      rw [State.station_of_stab (s := s) (by simp), h]
    simp only []
    rw [State.setStationState_eq hstation, State.place_eq]
    have hall := hend.one.step (.withdraw i st.address)
    cases held <;> exact hall
  all_goals exact .refl s

/-! ### The stop teardown (R44) -/

/-- An update of what the teardown neither reads nor writes. -/
structure State.OutsideTeardown (f : State → State) : Prop where
  station : ∀ u i, (f u).station i = u.station i
  setStation : ∀ u i st, (f u).setStation i st = f (u.setStation i st)
  cancelWaking : ∀ u i, (f u).cancelWaking i = f (u.cancelWaking i)
  freeHeld : ∀ u b, (f u).freeHeld b = f (u.freeHeld b)
  vacate : ∀ u i st, (f u).vacate i st = f (u.vacate i st)

theorem State.OutsideTeardown.setStationState {f : State → State} (h : State.OutsideTeardown f) (u : State) (i : Slot)
    (q : StationState) : (f u).setStationState i q = f (u.setStationState i q) := by
  unfold State.setStationState State.updateStation
  rw [h.station]
  cases u.station i with
  | none => rfl
  | some st => exact h.setStation u i _

theorem State.OutsideTeardown.discardHeld {f : State → State} (h : State.OutsideTeardown f) (u : State)
    (held : Option (Fin 16)) : (f u).discardHeld held = f (u.discardHeld held) := by
  cases held with
  | none => rfl
  | some b => exact h.freeHeld u b

theorem State.OutsideTeardown.teardownAt {f : State → State} (h : State.OutsideTeardown f) (s : State) (i : Slot) :
    (f s).teardownAt i = f (s.teardownAt i) := by
  unfold State.teardownAt
  rw [h.station]
  cases s.station i with
  | none => rfl
  | some st =>
    simp only [h.setStationState, h.cancelWaking, h.discardHeld, h.vacate]
    cases st.state with
    | leaving reason cause => cases reason <;> rfl
    | _ => rfl

theorem State.OutsideTeardown.teardownAll {f : State → State} (h : State.OutsideTeardown f) (slots : List Slot) (s : State) :
    slots.foldl State.teardownAt (f s) = f (slots.foldl State.teardownAt s) := by
  induction slots generalizing s with
  | nil => rfl
  | cons i rest ih => rw [List.foldl_cons, List.foldl_cons, h.teardownAt, ih]

theorem State.outsideTeardown_steer (t : Steer) : State.OutsideTeardown fun u => { u with steer := t } :=
  ⟨fun _ _ => rfl, fun _ _ _ => rfl, fun _ _ => rfl, fun _ _ => rfl, fun _ _ _ => rfl⟩

/-- STEER as it was, but for its requests and their timer. -/
def Steer.SameBut (t t' : Steer) : Prop :=
  t' = { t with queue := t'.queue, inFlight := t'.inFlight, ackTimer := t'.ackTimer }

theorem Steer.SameBut.refl (t : Steer) : t.SameBut t := rfl

theorem Steer.SameBut.trans {t t' t'' : Steer} (h : t.SameBut t') (h' : t'.SameBut t'') : t.SameBut t'' := by
  unfold Steer.SameBut at h h' ⊢
  rw [h', h]

theorem Steer.sameBut_without (t : Steer) (i : Slot) : t.SameBut (t.without i) := rfl

/-- The teardown at a record takes its requests from STEER, so that the two agree between one record and the next. -/
theorem State.effects_teardownAt (s : State) (i : Slot) :
    ∃ t, s.steer.SameBut t ∧ s.Effects { s.teardownAt i with steer := t } := by
  unfold State.teardownAt
  split
  · exact ⟨s.steer, rfl, .refl s⟩
  · next st h =>
    have hsteer : ∀ q : StationState, st.state.settled = false → q.settled = true →
        s.SteersTo { s.setStation i { st with state := q } with steer := s.steer.without i } := fun q hst hq hs =>
      hs.tornDown (State.station_setStation_of rfl) rfl (hs.running h hst) fun _ hx => by cases hx; exact hq
    have hrest : ∀ q : StationState, st.state.notWaking → q.notWaking → q.needsTemplate = false →
        q.leaseRemaining = none → st.state.settled = false → q.settled = true →
        ∃ t, s.steer.SameBut t ∧ s.Effects { s.setStationState i q with steer := t } := fun q hst hq ht hl hset hset' =>
      ⟨s.steer.without i, rfl, by
        rw [State.setStationState_eq h]
        exact State.effects_restate h (Station.mayBecome_of hst hq (Or.inr (Or.inr ht)) hl) rfl (hsteer q hset hset')⟩
    split
    case h_3 cause held hst =>
      have hstation : ((s.cancelWaking i).discardHeld held).station i = some st := by
        rw [State.station_of_stab (s := s) (by simp), h]
      rw [State.setStationState_eq hstation]
      exact ⟨s.steer.without i, rfl, (State.Effect.endWaking i st cause held .lapsed (s.steer.without i) h hst (by simp) rfl
        (hsteer .lapsed (by rw [hst]; rfl) rfl)).one⟩
    case h_6 hst =>
      exact ⟨s.steer.without i, rfl, (State.Effect.vacate i st (s.steer.without i) h (by simp [hst]) fun hs =>
        hs.tornDown (x := none) (fun j => State.vacate_station s i j st) rfl (hs.running h (by rw [hst]; rfl))
          fun _ hx => nomatch hx).one⟩
    case h_7 => exact ⟨s.steer, rfl, .refl s⟩
    case h_8 => exact ⟨s.steer, rfl, .refl s⟩
    all_goals next hst => exact hrest _ (by simp [hst]) (by simp) rfl rfl (by rw [hst]; rfl) rfl

theorem State.effects_teardownAll (slots : List Slot) (s : State) :
    ∃ t, s.steer.SameBut t ∧ s.Effects { slots.foldl State.teardownAt s with steer := t } := by
  induction slots generalizing s with
  | nil => exact ⟨s.steer, rfl, .refl s⟩
  | cons i rest ih =>
    obtain ⟨t, hsame, hfirst⟩ := s.effects_teardownAt i
    obtain ⟨t', hsame', hrest⟩ := ih { s.teardownAt i with steer := t }
    have hcomm := (State.outsideTeardown_steer t).teardownAll rest (s.teardownAt i)
    exact ⟨t', hsame.trans hsame', hfirst.trans (congrArg (fun u : State => ({ u with steer := t' } : State)) hcomm ▸ hrest)⟩

/-- R44: the teardown at a record settles it and touches no other. -/
theorem State.teardownAt_station (s : State) (i j : Slot) : (s.teardownAt i).station j =
    if i = j then ((s.teardownAt i).station i) else s.station j := by
  split
  · next hij => rw [hij]
  · next hij =>
    have hset : ∀ (u : State) (q : StationState), (u.setStationState i q).station j = u.station j := fun u q => by
      rw [State.setStationState_station, if_neg hij]
    unfold State.teardownAt
    split
    · rfl
    · split <;> simp [hset, State.vacate_station, hij, State.station_of_stab (s := s)]

theorem State.teardownAt_settled (s : State) (i : Slot) (st : Station) (h : (s.teardownAt i).station i = some st) :
    st.state.settled = true := by
  have hset : ∀ (u : State) (q : StationState), (u.setStationState i q).station i = some st → st.state = q := fun u q hu => by
    rw [State.setStationState_station, if_pos rfl] at hu
    obtain ⟨_, -, hst⟩ := Option.map_eq_some_iff.mp hu
    rw [← hst]
  unfold State.teardownAt at h
  split at h
  · next hnone => rw [hnone] at h; cases h
  · next st' hst' =>
    split at h
    case h_6 => rw [State.vacate_station, if_pos rfl] at h; cases h
    case h_7 hq => rw [hst'] at h; cases h; rw [hq]; rfl
    case h_8 hq => rw [hst'] at h; cases h; rw [hq]; rfl
    all_goals rw [hset _ _ h]; rfl

/-- R44: the teardown settles every record. -/
theorem State.teardown_settled (s : State) (i : Slot) (st : Station) (h : s.teardown.station i = some st) :
    st.state.settled = true := by
  have hall : ∀ (slots : List Slot) (u : State), (i ∈ slots ∨ ∀ x, u.station i = some x → x.state.settled = true) →
      ∀ x, (slots.foldl State.teardownAt u).station i = some x → x.state.settled = true := by
    intro slots
    induction slots with
    | nil => exact fun u hu x hx => (hu.resolve_left List.not_mem_nil) x hx
    | cons j rest ih =>
      refine fun u hu => ih _ ?_
      by_cases hji : j = i
      · exact Or.inr fun x hx => by rw [hji] at hx; exact State.teardownAt_settled u i x hx
      · rcases hu with hmem | hset
        · exact Or.inl ((List.mem_cons.mp hmem).resolve_left (Ne.symm hji))
        · exact Or.inr fun x hx => by rw [State.teardownAt_station, if_neg hji] at hx; exact hset x hx
  exact hall (List.finRange 64) s (Or.inl (List.mem_finRange i)) st h

end Sys2Proof.Machine
end

section
/-! PROOF. The events of each block as chains of small events: announcements, the steering link, time, emission, answers, intake. -/

namespace Sys2Proof.Machine

/-! ### Announcements (R86 to R88) -/

theorem State.effects_repeatAnnounced (s : State) (i : Slot) (st : Station) (op : AnnounceOp) (q : Half) :
    s.Effects (s.repeatAnnounced i st op q) := by
  unfold State.repeatAnnounced
  split
  · exact .refl s
  · exact .refl s
  · exact .refl s
  · exact (State.Effect.jobs _ _).one

theorem State.effects_takeAnnouncement {s : State} {i : Slot} {st : Station} (h : s.station i = some st)
    (op : AnnounceOp) (q l : Half) : s.Effects (s.takeAnnouncement i st op q l) := by
  have hnote : s.Effects (s.setStation i { st with lastSequence := some q }) := (State.Effect.note i st _ _ _ _ _ h).one
  unfold State.takeAnnouncement
  split
  · exact .refl s
  · exact State.effects_repeatAnnounced _ _ _ _ _
  · cases op with
    | sleep => exact hnote.trans (State.effects_sleepAnnounced _ _ _ _)
    | awake => exact hnote.trans (State.effects_confirmAwake _ _)

/-! ### Emission (8) -/

theorem State.freeResource_emit_comm (s : State) (e : Emit) (k : EntryKind) :
    ({ s with emit := e } : State).freeResource k = { s.freeResource k with emit := e } := by
  cases k <;> rfl

/-- R138: the entries leave the queue one after another, each with its resource. -/
theorem State.effects_freeResources (l : List Entry) (s : State) :
    ({ s with emit := { s.emit with waiting := l } } : State).Effects
      (({ s with emit := { s.emit with waiting := [] } } : State).freeResources l) := by
  induction l generalizing s with
  | nil => exact .refl _
  | cons x rest ih =>
    have hperm : ({ s.emit with waiting := x :: rest } : Emit).entries.Perm
        (x :: ({ s.emit with waiting := rest } : Emit).entries) := by
      rw [Emit.entries_waiting, Emit.entries_waiting s.emit rest]
      exact List.perm_middle
    have hends := State.Effect.entryEnds (s := { s with emit := { s.emit with waiting := x :: rest } }) x
      { s.emit with waiting := rest } hperm
    have hrest := ih (s.freeResource x.kind)
    refine hends.one.trans ?_
    unfold State.freeResources
    simp only [State.freeResource_emit_comm, State.freeResource_frame] at hrest ⊢
    exact hrest

theorem State.effects_purge (s : State) : s.Effects s.purge := State.effects_freeResources s.emit.waiting s

theorem Emit.entries_sent {e : Emit} {x : Entry} {w : Transfer} (h : e.sending = some (x, w)) :
    e.entries.Perm (x :: ({ e with sending := none } : Emit).entries) := by
  simp [Emit.entries, h]

/-! ### The steering link (9) -/

/-- STEER alone changes, with the same requests, into a shape that the old one allows. -/
theorem State.steersTo_resteer {s u : State} (hstab : u.stab = s.stab) (hqueue : u.steer.queue = s.steer.queue)
    (hshape : s.steer.ShapeOk → u.steer.sentRequest = s.steer.sentRequest ∧ u.steer.ShapeOk ∧
      (u.steer.mode ≠ .running → s.steer.mode ≠ .running)) : s.SteersTo u := fun hs => by
  obtain ⟨hsent, hok, hmode⟩ := hshape hs.shape
  exact hs.resteer (State.station_of_stab hstab) hqueue hsent hok hmode

/-- STEER changes and a message begins. -/
theorem State.effects_steerOut {s : State} {t : Steer} (o : Outputs) (h : s.SteersTo { s with steer := t }) :
    s.Effects { s with steer := t, out := o } :=
  (State.Effect.steering t h).one.step (.outputs o)

/-- Nothing of a station is in flight without a request in flight, or with a CLEAR_ALL. -/
theorem Steer.sentRequest_eq_none {t : Steer} (h : t.inFlight = none ∨ t.inFlight.map (·.body) = some .clearAll) :
    t.sentRequest = none := by
  unfold Steer.sentRequest
  rcases h with h | h
  · rw [h]
  · obtain ⟨f, hf, hb⟩ := Option.map_eq_some_iff.mp h
    rw [hf]
    simp only [hb]

theorem Steer.ShapeOk.of_stopped {t : Steer} (h : t.ShapeOk) (hm : t.mode = .stopped) :
    t.link = .idle ∧ t.queue = [] ∧ t.inFlight = none := by
  obtain ⟨-, -, hmode⟩ := h
  simpa only [hm] using hmode

theorem Steer.ShapeOk.of_starting {t : Steer} (h : t.ShapeOk) (hm : t.mode = .starting) :
    t.link ≠ .idle ∧ t.queue = [] ∧ t.inFlight.map (·.body) = some .clearAll := by
  obtain ⟨-, -, hmode⟩ := h
  simpa only [hm] using hmode

theorem Steer.ShapeOk.of_running {t : Steer} (h : t.ShapeOk) (hm : t.mode = .running) :
    t.link ≠ .idle ∧ ∀ f, t.inFlight = some f → f.body.isStation = true := by
  obtain ⟨-, -, hmode⟩ := h
  simpa only [hm] using hmode

theorem Steer.ShapeOk.of_stopping {t : Steer} (h : t.ShapeOk) (hm : t.mode = .stopping) :
    t.link = .up ∧ t.queue = [] ∧ t.inFlight.map (·.body) = some .clearAll := by
  obtain ⟨-, -, hmode⟩ := h
  simpa only [hm] using hmode

/-- A deferred start waits in STOPPED alone. -/
theorem Steer.ShapeOk.no_start {t : Steer} (h : t.ShapeOk) (hm : t.mode ≠ .stopped) : t.deferredStart = false := by
  obtain ⟨-, hstart, -⟩ := h
  by_contra hd
  exact hm (hstart (by simpa using hd))

theorem State.effects_startPart {s : State} (hm : s.steer.mode = .stopped) : s.Effects s.startPart := by
  refine State.effects_steerOut _ (State.steersTo_resteer rfl rfl fun hok => ?_)
  obtain ⟨-, hqueue, hnone⟩ := hok.of_stopped hm
  refine ⟨?_, ⟨by simp, by simp, by simp, hqueue, rfl⟩, fun _ => by rw [hm]; simp⟩
  rw [Steer.sentRequest_eq_none (Or.inr rfl), Steer.sentRequest_eq_none (Or.inl hnone)]

/-- R158, R161: STEER comes to STOPPED from a mode that has a CLEAR_ALL in flight. -/
theorem State.steersTo_stopped {s : State} {d : Bool} (hm : s.steer.mode = .starting ∨ s.steer.mode = .stopping) :
    s.SteersTo { s with steer := { s.steer with
      mode := .stopped, link := .idle, inFlight := none, ackTimer := none, deferredStart := d } } := by
  refine State.steersTo_resteer rfl rfl fun hok => ?_
  have hclear : s.steer.queue = [] ∧ s.steer.inFlight.map (·.body) = some .clearAll :=
    hm.elim (fun h => (hok.of_starting h).2) fun h => (hok.of_stopping h).2
  refine ⟨?_, ⟨by simp, fun _ => rfl, rfl, hclear.1, rfl⟩, fun _ => by rcases hm with h | h <;> rw [h] <;> simp⟩
  rw [Steer.sentRequest_eq_none (Or.inr hclear.2), Steer.sentRequest_eq_none (Or.inl rfl)]

theorem State.effects_abandonStart {s : State} (hm : s.steer.mode = .starting) : s.Effects s.abandonStart :=
  (State.Effect.steering _ (State.steersTo_stopped (d := s.steer.deferredStart) (Or.inl hm))).one.trans
    (State.effects_post _ _ _)

theorem State.effects_arriveStopped {s : State} (hm : s.steer.mode = .stopping) : s.Effects s.arriveStopped :=
  (State.Effect.steering _ (State.steersTo_stopped (d := s.mport.run) (Or.inr hm))).one.trans (State.effects_post _ _ _)

/-- An update that freeing a resource neither reads nor writes, freeing several leaves alone. -/
theorem State.freeResources_comm {f : State → State} (h : ∀ u k, (f u).freeResource k = f (u.freeResource k)) (l : List Entry)
    (s : State) : (f s).freeResources l = f (s.freeResources l) := by
  induction l generalizing s with
  | nil => rfl
  | cons x rest ih => rw [State.freeResources, State.freeResources, h, ih]

theorem State.purge_withSteer (s : State) (t : Steer) :
    ({ s with steer := t } : State).purge = { s.purge with steer := t } := by
  unfold State.purge
  exact State.freeResources_comm (f := fun u => { u with steer := t }) (fun _ k => by cases k <;> rfl) s.emit.waiting
    { s with emit := { s.emit with waiting := [] } }

/-- R160: the stop is the teardown of every record, the purge, and the CLEAR_ALL. -/
theorem State.beginStop_eq (s : State) : s.beginStop = { s.teardown.purge with
    steer := { s.steer with
      mode := .stopping, link := .up, queue := []
      inFlight := some { body := .clearAll, sequence := s.steer.sequence, retries := 0 }
      ackTimer := some s.mport.settings.steerAckTimeout.toNat, sequence := s.steer.sequence + 1#4 }
    out := s.teardown.purge.out.beginMessage (requestMessage .clearAll s.steer.sequence) } := by
  have hpurge : ∀ t : Steer, ({ s with steer := t } : State).teardown.purge = { s.teardown.purge with steer := t } := fun t =>
    (congrArg State.purge ((State.outsideTeardown_steer t).teardownAll (List.finRange 64) s)).trans (State.purge_withSteer s.teardown t)
  have hsettings : s.teardown.purge.mport = s.mport := by simp
  unfold State.beginStop
  simp only []
  rw [hpurge]
  simp only [State.sendNew, State.transmit, hsettings]

/-- The CLEAR_ALL of a stop is sent once every record is settled. -/
theorem State.effects_stop {v : State} {t t' : Steer} (q q' : BitVec 4) (n : Nat) (o : Outputs) (hrunning : t.mode = .running)
    (hsettled : ∀ i st, v.station i = some st → st.state.settled = true) (ht : t' = { t with
      mode := .stopping, link := .up, queue := [], inFlight := some { body := .clearAll, sequence := q, retries := 0 }
      ackTimer := some n, sequence := q' }) :
    ({ v with steer := t } : State).Effects { v with steer := t', out := o } :=
  State.effects_steerOut (s := { v with steer := t }) o fun hs => hs.stop hrunning hsettled (fun _ => rfl) ht

theorem State.effects_beginStop {s : State} (hm : s.steer.mode = .running) : s.Effects s.beginStop := by
  obtain ⟨t, hsame, hteardown⟩ := State.effects_teardownAll (List.finRange 64) s
  have hpurge : s.Effects { s.teardown.purge with steer := t } := by
    have hall := hteardown.trans (State.effects_purge { s.teardown with steer := t })
    rwa [State.purge_withSteer s.teardown t] at hall
  have hsettled : ∀ i st, s.teardown.purge.station i = some st → st.state.settled = true := fun i st hi =>
    s.teardown_settled i st ((State.station_of_stab (by simp) i).symm.trans hi)
  rw [State.beginStop_eq]
  exact hpurge.trans (State.effects_stop _ _ _ _ ((congrArg Steer.mode hsame).trans hm) hsettled (by rw [hsame]))

theorem State.effects_takeRunSet (s : State) : s.Effects s.takeRunSet := by
  unfold State.takeRunSet
  split
  · next hm => exact State.effects_startPart hm
  all_goals exact .refl s

/-- R161: a deferred start is not taken, or is cancelled. -/
theorem State.steersTo_noStart (s : State) : s.SteersTo { s with steer := { s.steer with deferredStart := false } } :=
  State.steersTo_resteer rfl rfl fun ⟨htimer, _, hmode⟩ => ⟨rfl, ⟨htimer, fun h => (nomatch h), hmode⟩, id⟩

theorem State.effects_takeRunCleared (s : State) : s.Effects s.takeRunCleared := by
  unfold State.takeRunCleared
  split
  · exact (State.Effect.steering _ s.steersTo_noStart).one
  · next hm => exact State.effects_abandonStart hm
  · next hm => exact State.effects_beginStop hm
  · exact .refl s

/-- R158: the answer to a CLEAR_ALL; in STOPPED and RUNNING none is in flight. -/
theorem State.effects_clearAllOutcome {s : State} {f : InFlight} (hf : s.steer.inFlight = some f) (hb : f.body = .clearAll) :
    s.Effects s.clearAllOutcome := by
  unfold State.clearAllOutcome
  split
  · next hm =>
    refine State.Effects.trans (State.Effect.steering _ ?_).one (State.effects_post _ _ _)
    refine State.steersTo_resteer rfl rfl fun hok => ?_
    obtain ⟨hlink, hqueue, hclear⟩ := hok.of_starting hm
    refine ⟨?_, ⟨by simp, fun hd => ?_, hlink, by simp⟩, by simp⟩
    · rw [Steer.sentRequest_eq_none (Or.inr hclear), Steer.sentRequest_eq_none (Or.inl rfl)]
    · rw [hok.no_start (by rw [hm]; simp)] at hd; cases hd
  · next hm => exact State.effects_arriveStopped hm
  · next hm =>
    refine (State.Effect.steering _ ?_).one
    refine State.steersTo_resteer rfl rfl fun hok => ?_
    rw [(hok.of_stopped hm).2.2] at hf
    cases hf
  · next hm =>
    refine (State.Effect.steering _ ?_).one
    refine State.steersTo_resteer rfl rfl fun hok => ?_
    have hstation := (hok.of_running hm).2 f hf
    rw [hb] at hstation
    cases hstation

theorem State.effects_takeAnswer (s : State) (q : Byte) (v : Verdict) : s.Effects (s.takeAnswer q v) := by
  unfold State.takeAnswer
  split
  · exact .refl s
  · next f hmatch =>
    have hf : s.steer.inFlight = some f := by
      unfold Steer.matching at hmatch
      split at hmatch
      · cases hmatch
      · split at hmatch
        · split at hmatch
          · cases hmatch; assumption
          · cases hmatch
        · cases hmatch
    split
    · next hb => exact State.effects_clearAllOutcome hf hb
    · next r hb => exact State.effects_stationOutcome (by simp [Steer.sentRequest, hf, hb]) v

/-- The receiver's footing is no part of what the records and requests agree on. -/
theorem State.steersTo_footed (s : State) : s.SteersTo s.footed :=
  State.steersTo_resteer rfl rfl fun hok => ⟨rfl, hok, id⟩

theorem State.effects_afterRun (s : State) : s.Effects s.afterRun :=
  (State.Effect.steering _ s.steersTo_footed).one.step (.outputs _)

theorem State.effects_passMilliseconds (s : State) (n : Nat) : s.Effects (s.passMilliseconds n) :=
  (State.Effect.age n).one.step (.steering _ (State.steersTo_resteer rfl rfl fun hok =>
    ⟨rfl, ⟨by simpa using hok.1, hok.2⟩, id⟩))

theorem State.effects_resend {s : State} {f : InFlight} (hf : s.steer.inFlight = some f) (n : Nat)
    (ht : s.steer.ackTimer.isSome = true) : s.Effects (s.resend f n) := by
  refine State.effects_steerOut _ (State.steersTo_resteer rfl rfl fun hok => ⟨by simp [Steer.sentRequest, hf], ?_, id⟩)
  obtain ⟨htimer, hstart, hmode⟩ := hok
  have hlink := (htimer.mp ht).2
  refine ⟨by simpa using hlink, hstart, ?_⟩
  cases hm : s.steer.mode <;> simp_all

theorem State.effects_takeTimeout {s : State} {f : InFlight} (hf : s.steer.inFlight = some f)
    (ht : s.steer.ackTimer.isSome = true) : s.Effects (s.takeTimeout f) := by
  unfold State.takeTimeout State.exhaustRetries
  split
  · exact State.effects_resend hf _ ht
  · split
    · next hm => exact (State.effects_arriveStopped hm).trans (State.effects_post _ _ _)
    · next hm =>
      refine State.Effects.trans (State.Effect.steering _ ?_).one (State.effects_post _ _ _)
      refine State.steersTo_resteer rfl rfl fun hok => ⟨rfl, ?_, id⟩
      refine ⟨by simp, hok.2.1, ?_⟩
      cases hmode : s.steer.mode with
      | stopped => rw [(hok.of_stopped hmode).2.2] at hf; cases hf
      | starting => exact ⟨by simp, (hok.of_starting hmode).2⟩
      | running => exact ⟨by simp, (hok.of_running hmode).2⟩
      | stopping => exact absurd hmode hm

/-- R156: with the link DOWN STEER is in STARTING or RUNNING, and comes UP with its request sent again. -/
theorem State.effects_restartLink (s : State) : s.Effects s.restartLink.1 := by
  unfold State.restartLink
  split
  · next hdown =>
    have hshape : ∀ (f : Option InFlight) (m : Option Nat), (m.isSome = true ↔ f.isSome = true) →
        f.map (·.body) = s.steer.inFlight.map (·.body) → s.steer.ShapeOk →
        ({ s.steer with link := .up, inFlight := f, ackTimer := m } : Steer).ShapeOk := fun f m hm hbody hok => by
      refine ⟨by simpa using hm, hok.2.1, ?_⟩
      cases hmode : s.steer.mode with
      | stopped => rw [(hok.of_stopped hmode).1] at hdown; cases hdown
      | starting =>
        obtain ⟨-, hqueue, hclear⟩ := hok.of_starting hmode
        exact ⟨by simp, hqueue, hbody.trans hclear⟩
      | running =>
        obtain ⟨-, hstation⟩ := hok.of_running hmode
        refine ⟨by simp, fun g hg => ?_⟩
        rw [show f = some g from hg, Option.map_some, eq_comm, Option.map_eq_some_iff] at hbody
        obtain ⟨g', hg', hbody'⟩ := hbody
        rw [← hbody']
        exact hstation g' hg'
      | stopping => rw [(hok.of_stopping hmode).1] at hdown; cases hdown
    simp only []
    split
    · next f hf =>
      exact State.effects_steerOut _ (State.steersTo_resteer rfl rfl fun hok =>
        ⟨by simp [Steer.sentRequest, show s.steer.inFlight = some f from hf],
          hshape _ _ (by simp) (by simp [show s.steer.inFlight = some f from hf]) hok, id⟩)
    · next hf =>
      have hnone : s.steer.inFlight = none := hf
      refine (State.Effect.steering _ ?_).one
      refine State.steersTo_resteer rfl rfl fun hok => ⟨rfl, ?_, id⟩
      refine hshape s.steer.inFlight s.steer.ackTimer ?_ rfl hok
      rw [hok.1, hdown, hnone]
      simp
  · exact .refl s

/-! ### Time (R24, R39, R115) -/

theorem StationState.leaseDue_asleep {q : StationState} (h : q.leaseDue = true) : ∃ l, q = .asleep l := by
  cases q with
  | asleep l => exact ⟨l, rfl⟩
  | _ => cases h

theorem State.effects_expireLease (s : State) (i : Slot) : s.Effects (s.expireLease i) := by
  unfold State.expireLease
  split
  · next st h =>
    split
    · next hdue =>
      obtain ⟨l, hst⟩ := StationState.leaseDue_asleep hdue
      exact (State.Effect.wake i st l .lease h hst).one
    · exact .refl s
  · exact .refl s

theorem State.effects_expireInterval (s : State) (i : Slot) : s.Effects (s.expireInterval i) := by
  unfold State.expireInterval State.takeInterval
  split
  · next x hx =>
    split
    · split
      · next h => exact (State.Effect.dropContext i (by simp [h])).one
      · next st h =>
        split
        · next hlimit => exact (State.Effect.retry i st x h hx hlimit).one
        · exact State.effects_exhaustWaking s i
    · exact .refl s
  · exact .refl s

/-! ### Answers (6) -/

theorem State.effects_claimAnswer {s t : State} {l : List Byte} {p : Port} {g : Segment}
    (h : s.claimAnswer l p g = .ok t) : s.Effects t := by
  obtain ⟨b, hb, hroom, rfl⟩ := State.claimAnswer_ok h
  exact (State.Effect.claim b l p g hb hroom).one

theorem State.effects_answer (s : State) (job : AnswerJob) : s.Effects (s.answer job) := by
  unfold State.answer
  split
  · exact .refl s
  · split
    · exact .refl s
    · split
      · exact State.effects_post _ _ _
      · next t ht =>
        exact (State.effects_claimAnswer ht).trans
          (State.effects_updateStation_note _ _ _ fun _ => ⟨_, _, _, _, _, rfl⟩)

theorem State.effects_acknowledge (s : State) (job : AckJob) : s.Effects (s.acknowledge job) := by
  unfold State.acknowledge
  simp only []
  split
  · exact State.effects_post _ _ _
  · split
    · exact State.effects_post _ _ _
    · next ht => exact State.effects_claimAnswer ht

/-! ### Frames in (5) -/

theorem State.effects_startArrival (s : State) : s.Effects s.startArrival := by
  unfold State.startArrival
  split
  · next hready =>
    simp only [Bool.and_eq_true, Option.isNone_iff_eq_none] at hready
    split
    · next j hj =>
      have hfree : s.icls.slots[j.val] = .free := by
        have := (lowest_some hj).1
        revert this
        cases s.icls.slots[j.val] <;> simp [IntakeSlot.isFree]
      exact (State.Effect.startArrival j hfree hready.2).one
    · exact .refl s
  · exact .refl s

theorem State.effects_finishArrival (s : State) (tag : IntakeTag) (bytes : List Byte) :
    s.Effects (s.finishArrival tag bytes) := by
  unfold State.finishArrival
  split
  · exact .refl s
  · next j hj =>
    have harriving : s.icls.slots[j.val] = .arriving := by simpa using (lowest_some hj).1
    exact (State.Effect.finishArrival j _ harriving).one

theorem State.effects_nextTest (s : State) (g : Option Slot) (n : NextTest) : s.Effects (s.nextTest g n) :=
  (State.Effect.goOn _).one

theorem State.effects_testSighting (s : State) (f : Frame) : s.Effects (s.testSighting f) := by
  unfold State.testSighting
  split
  · exact (State.Effect.present _ rfl).one.trans (State.effects_nextTest _ _ _)
  · exact State.effects_nextTest _ _ _

theorem State.effects_testAnnouncement {s : State} {j : Fin 4} {rest : List (Fin 4)} (hj : s.icls.arrivals = j :: rest)
    (f : Frame) : s.Effects (s.testAnnouncement j f) := by
  unfold State.testAnnouncement
  split
  · exact (State.Effect.discard j rest hj).one
  · split
    · exact (State.Effect.present _ rfl).one.step (.discard j rest hj)
    · exact (State.effects_post _ _ _).step (.discard j rest hj)

theorem State.effects_testQuery (s : State) (g : Option Slot) (f : Frame) : s.Effects (s.testQuery g f) := by
  unfold State.testQuery
  split
  · split <;> exact State.effects_nextTest _ _ _
  · exact State.effects_nextTest _ _ _

theorem State.effects_useLookup (s : State) (f : Frame) (i : Slot) (flag : Bool) : s.Effects (s.useLookup f i flag) := by
  unfold State.useLookup
  split
  · exact .refl s
  · split
    · exact .refl s
    · split
      · simp only []
        split
        · exact (State.Effect.jobs _ _).one.step (.present _ rfl)
        · exact (State.Effect.jobs _ _).one
      · exact (State.Effect.jobs _ _).one
      all_goals exact .refl s

theorem State.effects_testProbe {s : State} {j : Fin 4} {rest : List (Fin 4)} (hj : s.icls.arrivals = j :: rest)
    (g : Option Slot) (f : Frame) : s.Effects (s.testProbe j g f) := by
  unfold State.testProbe
  split
  · exact (State.Effect.jobs _ _).one.step (.discard j rest hj)
  · exact State.effects_nextTest _ _ _

theorem State.effects_shedFrame {s : State} {j : Fin 4} {rest : List (Fin 4)} (hj : s.icls.arrivals = j :: rest)
    (i : Slot) (st : Station) : s.Effects (s.shedFrame j i st) :=
  (State.Effect.present _ rfl).one.step (.discard j rest hj)

theorem State.effects_passFrame {s : State} {j : Fin 4} {rest : List (Fin 4)} (hj : s.icls.arrivals = j :: rest)
    (f : Frame) (i : Slot) (st : Station) : s.Effects (s.passFrame j f i st) := by
  unfold State.passFrame
  split
  · next t ht =>
    obtain ⟨hroom, rfl⟩ := State.passThrough_some ht
    have hpass := (State.Effect.passFrame j rest f st.port st.segment hj hroom).one
    simpa only [State.endFrame, tset_tset] using hpass
  · exact State.effects_shedFrame hj i st

theorem State.effects_testSteered {s : State} {j : Fin 4} {rest : List (Fin 4)} (hj : s.icls.arrivals = j :: rest)
    (f : Frame) : s.Effects (s.testSteered j f) := by
  unfold State.testSteered
  split
  · exact (State.Effect.discard j rest hj).one
  · split
    · split
      · exact (State.Effect.presentTrigger j rest f _ hj rfl).one
      · exact State.effects_shedFrame hj _ _
    · exact State.effects_shedFrame hj _ _
    all_goals exact State.effects_passFrame hj f _ _

theorem State.effects_floodAt (s : State) (g : Option Slot) (f : Frame) (i : Slot) : s.Effects (s.floodAt g f i) := by
  unfold State.floodAt
  split
  · exact .refl s
  · split
    · split
      · exact (State.Effect.present _ rfl).one
      · exact .refl s
    · exact .refl s

theorem State.effects_testFlood {s : State} {j : Fin 4} {rest : List (Fin 4)} (hj : s.icls.arrivals = j :: rest)
    (g : Option Slot) (f : Frame) (k : Nat) : s.Effects (s.testFlood j g f k) := by
  unfold State.testFlood
  split
  · next hk =>
    have hflood := State.effects_floodAt s g f ⟨k, hk⟩
    simp only []
    split
    · exact hflood.trans (State.effects_nextTest _ _ _)
    · exact hflood.step (.discard j rest (by simpa using hj))
  · exact (State.Effect.discard j rest hj).one

theorem State.effects_makeTest {s : State} {j : Fin 4} {rest : List (Fin 4)} (hj : s.icls.arrivals = j :: rest)
    (f : Frame) (c : Classification) : s.Effects (s.makeTest j f c) := by
  unfold State.makeTest
  split
  · exact State.effects_testSighting s f
  · exact State.effects_testAnnouncement hj f
  · exact State.effects_testQuery s _ f
  · exact (State.effects_useLookup s f _ _).trans (State.effects_nextTest _ _ _)
  · exact State.effects_testProbe hj _ f
  · exact State.effects_testSteered hj f
  · exact State.effects_testFlood hj _ f _

theorem State.effects_classifyOnce (s : State) : s.Effects s.classifyOnce := by
  unfold State.classifyOnce
  split
  · exact .refl s
  · next j rest hj =>
    split
    · unfold State.testTag
      split
      · next f _ => exact (State.Effect.passTag j rest f hj).one.trans (State.effects_nextTest _ _ _)
      · exact (State.Effect.discard j rest hj).one
    · exact State.effects_makeTest hj _ _
    all_goals exact .refl s

theorem State.effects_classify (n : Nat) (s : State) : s.Effects (State.classify n s) := by
  induction n generalizing s with
  | zero => exact .refl s
  | succ n ih =>
    unfold State.classify
    simp only []
    split
    · exact State.effects_classifyOnce s
    · exact (State.effects_classifyOnce s).trans (ih _)

end Sys2Proof.Machine
end

section
/-! PROOF. Every command answers a next state, and reaches it by a chain of small events with the pins driven at its end. -/

namespace Sys2Proof.Machine

/-! ### The SPI port (12) -/

theorem Settings.InRange.setTiming {c : Settings} (h : c.InRange) {f : TimingField} {b : Byte}
    (hb : timingAccepts f b = true) : (c.setTiming f b).InRange := by
  obtain ⟨hgroup, hinterval, hlow, hhigh, hack, hretry, htrigger, htop⟩ := h
  cases f <;> simp only [timingAccepts, decide_eq_true_eq] at hb
  · exact ⟨hgroup, hb, hlow, hhigh, hack, hretry, htrigger, htop⟩
  · exact ⟨hgroup, hinterval, hb.1, hb.2, hack, hretry, htrigger, htop⟩
  · exact ⟨hgroup, hinterval, hlow, hhigh, hb, hretry, htrigger, htop⟩
  · exact ⟨hgroup, hinterval, hlow, hhigh, hack, hb, htrigger, htop⟩

theorem Settings.InRange.setNotice {c : Settings} (h : c.InRange) {f : NoticeField} {b : Byte}
    (hb : noticeAccepts f b = true) : (c.setNotice f b).InRange := by
  obtain ⟨hgroup, hinterval, hlow, hhigh, hack, hretry, htrigger, htop⟩ := h
  cases f
  · simp only [noticeAccepts, decide_eq_true_eq] at hb
    exact ⟨hgroup, hinterval, hlow, hhigh, hack, hretry, hb.1, hb.2⟩
  · exact ⟨hgroup, hinterval, hlow, hhigh, hack, hretry, htrigger, htop⟩
  · exact ⟨hgroup, hinterval, hlow, hhigh, hack, hretry, htrigger, htop⟩

theorem State.effects_refuseConfig (s : State) : s.Effects s.refuseConfig := (State.Effect.port _ _ _ _ _ _).one

theorem State.effects_writeTiming (s : State) (f : TimingField) (b : Byte) : s.Effects (s.writeTiming f b) := by
  unfold State.writeTiming
  split
  · next hb => exact (State.Effect.configure _ (fun h => h.setTiming hb) (Or.inl (by cases f <;> rfl))).one
  · exact State.effects_refuseConfig s

theorem State.effects_writeNotice (s : State) (f : NoticeField) (b : Byte) : s.Effects (s.writeNotice f b) := by
  unfold State.writeNotice
  split
  · next hb => exact (State.Effect.configure _ (fun h => h.setNotice hb) (Or.inl (by cases f <;> rfl))).one
  · exact State.effects_refuseConfig s

theorem State.effects_takeRecognition (s : State) (w : Nat → Option Byte) : s.Effects (s.takeRecognition w) := by
  have hconfigure : ∀ c : Settings, (s.mport.settings.InRange → c.InRange) →
      (c.partAddress = s.mport.settings.partAddress ∨ s.findAddress c.partAddress = none) →
      s.Effects { s with mport := { s.mport with settings := c } } := fun c hr ha => (State.Effect.configure c hr ha).one
  unfold State.takeRecognition
  simp only []
  split
  · split
    · refine State.Effects.trans ?_ (State.effects_refuseConfig _)
      exact hconfigure _ (fun h => ⟨h.1, h.2⟩) (Or.inl rfl)
    · next hr =>
      simp only [State.refusesPartAddress, Bool.or_eq_true, not_or, Bool.not_eq_true, Option.isSome_eq_false_iff,
        Option.isNone_iff_eq_none] at hr
      exact hconfigure _ (fun h => ⟨hr.1, h.2⟩) (Or.inr hr.2)
  · exact hconfigure _ (fun h => ⟨h.1, h.2⟩) (Or.inl rfl)

theorem State.effects_writeRecognition (s : State) (w : Nat → Option Byte) : s.Effects (s.writeRecognition w) := by
  unfold State.writeRecognition
  split
  · split
    · exact State.effects_takeRecognition s w
    · exact (State.Effect.port _ _ _ _ _ _).one
  · exact .refl s

theorem effects_whenWritten {s u : State} (h : s.Effects u) (b : Option Byte) {f : State → Byte → State}
    (hf : ∀ v x, State.Effects v (f v x)) : s.Effects (whenWritten b u f) := by
  cases b with
  | none => exact h
  | some x => exact h.trans (hf u x)

theorem State.effects_writeFields (s : State) (w : Nat → Option Byte) : s.Effects (s.writeFields w) := by
  have htiming : ∀ {u : State} (f : TimingField), s.Effects u →
      s.Effects (whenWritten (w (timingRegister f)) u fun v b => v.writeTiming f b) := fun f h =>
    effects_whenWritten h _ fun v b => v.effects_writeTiming f b
  have hnotice : ∀ {u : State} (f : NoticeField), s.Effects u →
      s.Effects (whenWritten (w (noticeRegister f)) u fun v b => v.writeNotice f b) := fun f h =>
    effects_whenWritten h _ fun v b => v.effects_writeNotice f b
  exact hnotice _ <| hnotice _ <| hnotice _ <| htiming _ <| htiming _ <| htiming _ <| htiming _ <|
    State.effects_writeRecognition s w

theorem State.effects_writeEvent (s : State) (addr : Half) (data : List Byte) : s.Effects (s.writeEvent addr data) := by
  unfold State.writeEvent
  simp only []
  split
  · exact ((effects_whenWritten (.refl s) _ fun v x => (State.Effect.port _ _ _ _ _ _).one).trans
      (State.effects_writeFields _ _)).step (.port _ _ _ _ _ _)
  · split
    · exact (State.Effect.storeCommand _ _).one
    · exact .refl s

theorem State.effects_raiseNcs (s : State) (more : List Byte) : s.Effects (s.raiseNcs more) := by
  unfold State.raiseNcs
  split
  · exact (State.Effect.port _ _ _ _ _ _).one.trans (State.effects_writeEvent _ _ _)
  · exact (State.Effect.port _ _ _ _ _ _).one
  · exact .refl s

theorem State.effects_beginTransaction (s : State) : s.Effects s.beginTransaction := by
  unfold State.beginTransaction
  simp only []
  split
  · exact (State.effects_raiseNcs s []).step .softReset
  · exact State.effects_raiseNcs s []

theorem State.effects_unlessIssued (s : State) (issued : Bool) : s.Effects (s.unlessIssued issued) := by
  cases issued
  · exact State.effects_beginTransaction s
  · exact .refl s

theorem State.effects_readTake (s : State) (first : Nat) : s.Effects (s.readTake first) := by
  unfold State.readTake
  split
  · exact State.Effect.takeNotice.one.step (.outputs _)
  · exact (State.Effect.outputs _).one

theorem State.effects_runSet (s : State) : s.Effects s.runSet := by
  unfold State.runSet
  split
  · exact (State.Effect.port _ _ _ _ _ _).one.trans (State.effects_takeRunSet _)
  · exact .refl s
  · split
    · exact .refl s
    · exact (State.Effect.port _ _ _ _ _ _).one.trans (State.effects_takeRunSet _)

theorem State.effects_runCleared (s : State) : s.Effects s.runCleared := by
  unfold State.runCleared
  split
  · exact (State.Effect.port _ _ _ _ _ _).one.trans (State.effects_takeRunCleared _)
  · exact .refl s
  · split
    · exact (State.Effect.port _ _ _ _ _ _).one.trans (State.effects_takeRunCleared _)
    · exact .refl s

theorem State.effects_takeGo (s : State) : s.Effects s.takeGo := by
  unfold State.takeGo
  split
  · exact State.Effect.latch.one
  · exact (State.Effect.commandOverrun true).one

theorem State.effects_clearSticky (s : State) (f : StickyFlag) : s.Effects (s.clearSticky f) := by
  cases f
  · exact (State.Effect.commandOverrun false).one
  · exact (State.Effect.noticeOverrun false).one
  · exact (State.Effect.port _ _ _ _ _ _).one
  · exact (State.Effect.port _ _ _ _ _ _).one

theorem State.effects_takeClear (s : State) (f : StickyFlag) : s.Effects (s.takeClear f) := by
  have htake : s.Effects { s with mport := s.mport.takeIssued (.clear f) } := (State.Effect.port _ _ _ _ _ _).one
  exact htake.trans (State.effects_clearSticky _ f)

theorem State.effects_clearRow (s : State) (f : StickyFlag) : s.Effects (s.clearRow f) :=
  (State.effects_unlessIssued s _).trans (State.effects_takeClear _ f)

/-! ### The events of management commands (10) -/

/-- The checks at CMDE of a command whose event is about to be taken have passed: now, or when it was so marked, which
`State.ChecksPassed` holds. -/
def State.CheckedNow (s : State) (c : Memory) (code : Byte) (checks : Checks) : Prop :=
  commandCode c = code ∧ (s.cmde.engine = .busy c .checked ∨ checks s c = none)

theorem State.CheckedNow.create {s : State} {c : Memory} (h : s.CheckedNow c 0x01#8 createChecks) (hp : s.ChecksPassed) :
    createChecks s c = none := h.2.elim (fun he => (hp c he).1 h.1) id

theorem State.CheckedNow.setTemplate {s : State} {c : Memory} (h : s.CheckedNow c 0x02#8 setTemplateChecks)
    (hp : s.ChecksPassed) : setTemplateChecks s c = none := h.2.elim (fun he => (hp c he).2.1 h.1) id

theorem State.CheckedNow.define {s : State} {c : Memory} (h : s.CheckedNow c 0x20#8 defineChecks) (hp : s.ChecksPassed) :
    defineChecks s c = none := h.2.elim (fun he => (hp c he).2.2 h.1) id

theorem effects_guarded {s : State} {l : List (Bool × ResultCode)} {e : State × Reply}
    (he : firstFailed l = none → s.Effects e.1) : s.Effects (guarded l s e).1 :=
  guarded_keeps (P := s.Effects) (.refl s) he

theorem effects_withHandle {s : State} {c : Memory} {f : State → Slot → Station → State × Reply}
    (hf : ∀ i st, s.station i = some st → s.Effects (f s i st).1) : s.Effects (withHandle f s c).1 :=
  withHandle_keeps (P := s.Effects) (.refl s) fun i st h _ => hf i st h

theorem effects_withRule {s : State} {n : Nat} {f : RuleNumber → State × Reply} (hf : ∀ k, s.Effects (f k).1) :
    s.Effects (withRule n s f).1 :=
  withRule_keeps (P := s.Effects) (.refl s) fun k _ => hf k

theorem createEvent_effects {s : State} {c : Memory} (h : s.CheckedNow c 0x01#8 createChecks) :
    s.Effects (createEvent s c).1 := by
  unfold createEvent
  split
  · exact .refl s
  · next hpart =>
    split
    · exact .refl s
    · next hfind =>
      split
      · exact .refl s
      · next i hi =>
        exact (State.Effect.enrol c i h.create hpart (by simpa using hfind)
          (Option.isNone_iff_eq_none.mp (lowest_some hi).1)).one

theorem setTemplateEvent_effects {s : State} {c : Memory} (h : s.CheckedNow c 0x02#8 setTemplateChecks) :
    s.Effects (setTemplateEvent s c).1 := by
  refine effects_withHandle fun i st hst => effects_guarded fun hpass => ?_
  simp only [firstFailed_none, List.forall_mem_singleton, Bool.not_eq_false'] at hpass
  refine (State.Effect.template i st _ hst hpass fun hp bytes hb => ?_).one
  have hlength := h.setTemplate hp
  simp only [setTemplateChecks, firstFailed_none, List.forall_mem_cons, decide_eq_false_iff_not] at hlength
  obtain ⟨-, hlength, -⟩ := hlength
  simp only [Config.templateMin, Config.templateMax] at hlength
  cases hb
  simp only [Memory.bytes, List.length_map, List.length_range]
  omega

theorem clearTemplateEvent_effects (s : State) (c : Memory) : s.Effects (clearTemplateEvent s c).1 := by
  refine effects_withHandle fun i st hst => effects_guarded fun hpass => ?_
  simp only [firstFailed_none, List.forall_mem_singleton, Bool.not_eq_false'] at hpass
  exact (State.Effect.template i st none hst hpass fun _ _ hb => nomatch hb).one

theorem addIdentifierEvent_effects (s : State) (c : Memory) : s.Effects (addIdentifierEvent s c).1 := by
  refine effects_withHandle fun i st hst => effects_guarded fun hpass => ?_
  simp only [firstFailed_none, List.forall_mem_cons, decide_eq_false_iff_not, not_le] at hpass
  obtain ⟨-, hnew, hlist, hmap, -⟩ := hpass
  exact (State.Effect.addIdentifier i st _ _ hst hnew hlist hmap).one

theorem removeIdentifierEvent_effects (s : State) (c : Memory) : s.Effects (removeIdentifierEvent s c).1 := by
  refine effects_withHandle fun i st hst => effects_guarded fun hpass => ?_
  simp only [firstFailed_none, List.forall_mem_cons, Bool.not_eq_false', List.any_eq_true, decide_eq_true_eq] at hpass
  obtain ⟨-, hlisted, -⟩ := hpass
  exact (State.Effect.removeIdentifier i st _ hst (List.mem_map.mpr hlisted)).one

theorem attachRuleEvent_effects (s : State) (c : Memory) : s.Effects (attachRuleEvent s c).1 := by
  refine effects_withHandle fun i st hst => effects_withRule fun n => effects_guarded fun hpass => ?_
  simp only [firstFailed_none, List.forall_mem_cons, decide_eq_false_iff_not, not_le] at hpass
  obtain ⟨-, -, -, hlist, -⟩ := hpass
  exact (State.Effect.attachRule i st n hst hlist).one

theorem detachRuleEvent_effects (s : State) (c : Memory) : s.Effects (detachRuleEvent s c).1 :=
  effects_withHandle fun i st hst => effects_withRule fun n => effects_guarded fun _ =>
    (State.Effect.detachRule i st n hst).one

theorem sleepEvent_effects (s : State) (c : Memory) : s.Effects (sleepEvent s c).1 :=
  effects_withHandle fun _ _ hst => State.effects_sleepCommanded hst _

theorem wakeEvent_effects (s : State) (c : Memory) : s.Effects (wakeEvent s c).1 :=
  effects_withHandle fun _ _ hst => State.effects_wakeCommanded hst

theorem retireEvent_effects (s : State) (c : Memory) : s.Effects (retireEvent s c).1 :=
  effects_withHandle fun _ _ hst => State.effects_retire hst

theorem clearCountersEvent_effects (s : State) (c : Memory) : s.Effects (clearCountersEvent s c).1 :=
  effects_withHandle fun i st hst => (State.Effect.note i st _ _ _ _ _ hst).one

theorem defineEvent_effects {s : State} {c : Memory} (h : s.CheckedNow c 0x20#8 defineChecks) :
    s.Effects (defineEvent s c).1 := by
  refine effects_withRule fun n => effects_guarded fun _ => (State.Effect.replaceRule n _ fun hp b hb => ?_).one
  have hspans := h.define hp
  simp only [defineChecks, firstFailed_none, List.forall_mem_cons, Bool.not_eq_false'] at hspans
  obtain ⟨-, -, -, hvalid, -⟩ := hspans
  cases hb
  exact hvalid

theorem deleteEvent_effects (s : State) (c : Memory) : s.Effects (deleteEvent s c).1 :=
  effects_withRule fun n => effects_guarded fun _ => 
    (State.Effect.replaceRule n { refCount := 0, body := none } fun _ _ hb => nomatch hb).one

/-! ### The rows of management commands (R169) -/

/-- The progress of an execution moves on within the command that is latched. -/
theorem State.effects_setProgress {s : State} {c : Memory} {p q : Progress} (he : s.cmde.engine = .busy c q)
    (hp : p = .checked → q = .checked ∨ s.PassesChecks c) : s.Effects (s.setProgress c p) :=
  (State.Effect.progress c p q he hp).one

/-- A row is a chain of small events when its event is, taken with the checks passed, and when passing its checks is
passing what `State.ChecksPassed` asks of its code. -/
theorem runRow_effects {accepts : Byte → Bool} {checks : Checks} {event : Event} (upTo : CommandStage) (s : State)
    (hchecks : ∀ c, accepts (commandCode c) = true → checks s c = none → s.PassesChecks c)
    (hevent : ∀ c, accepts (commandCode c) = true → (s.cmde.engine = .busy c .checked ∨ checks s c = none) →
      s.Effects (event s c).1 ∧ (event s c).1.cmde = s.cmde) :
    ∃ u, runRow accepts checks event upTo s = settle u ∧ s.Effects u := by
  unfold runRow
  split
  · exact ⟨s, rfl, .refl s⟩
  · next c p he =>
    split
    · next ha =>
      refine ⟨_, rfl, ?_⟩
      have hpassed : runChecks checks s c p = .checked → p = .checked ∨ checks s c = none := by
        cases p with
        | latched =>
          intro h
          cases hc : checks s c with
          | none => exact Or.inr rfl
          | some code => simp [runChecks, afterChecks, hc] at h
        | checked => exact fun _ => Or.inl rfl
        | decided r => exact fun h => nomatch h
      have hrun : s.Effects (runEvent event s c (runChecks checks s c p)).1 ∧
          (runEvent event s c (runChecks checks s c p)).1.cmde = s.cmde := by
        cases hq : runChecks checks s c p with
        | latched => exact ⟨.refl s, rfl⟩
        | decided r => exact ⟨.refl s, rfl⟩
        | checked => exact hevent c ha ((hpassed hq).imp (fun h => by rw [he, h]) id)
      have hdecided : (runEvent event s c (runChecks checks s c p)).2 ≠ .checked := by
        cases runChecks checks s c p <;> simp [runEvent]
      unfold State.execute
      cases upTo with
      | checks => exact State.effects_setProgress he fun h => (hpassed h).imp id (hchecks c ha)
      | event =>
        exact hrun.1.trans (State.effects_setProgress (hrun.2.symm ▸ he) fun h => absurd h hdecided)
      | completion =>
        simp only [runCompletion]
        split
        · exact hrun.1
        · exact hrun.1
        · exact hrun.1.step (.complete _ _)
    · exact ⟨s, rfl, .refl s⟩

/-- The row of a command other than the three whose checks `State.ChecksPassed` speaks of. -/
theorem runRow_effects_of {code : Byte} {checks : Checks} {event : Event} (upTo : CommandStage) (s : State)
    (hcode : code ≠ 0x01#8 ∧ code ≠ 0x02#8 ∧ code ≠ 0x20#8)
    (hevent : ∀ c, s.Effects (event s c).1 ∧ (event s c).1.cmde = s.cmde) :
    ∃ u, runRow (· = code) checks event upTo s = settle u ∧ s.Effects u := by
  refine runRow_effects upTo s (fun c ha _ => ?_) fun c _ _ => hevent c
  have hc : commandCode c = code := by simpa using ha
  obtain ⟨h1, h2, h3⟩ := hcode
  unfold State.PassesChecks
  rw [hc]
  exact ⟨fun e => absurd e h1, fun e => absurd e h2, fun e => absurd e h3⟩

theorem withHandle_cmde {s : State} {c : Memory} {f : State → Slot → Station → State × Reply}
    (hf : ∀ i st, (f s i st).1.cmde = s.cmde) : (withHandle f s c).1.cmde = s.cmde :=
  withHandle_keeps (P := fun u => u.cmde = s.cmde) rfl fun i st _ _ => hf i st

theorem guarded_cmde {s : State} {l : List (Bool × ResultCode)} {e : State × Reply} (he : e.1.cmde = s.cmde) :
    (guarded l s e).1.cmde = s.cmde :=
  guarded_keeps (P := fun u => u.cmde = s.cmde) rfl fun _ => he

theorem withRule_cmde {s : State} {n : Nat} {f : RuleNumber → State × Reply} (hf : ∀ k, (f k).1.cmde = s.cmde) :
    (withRule n s f).1.cmde = s.cmde :=
  withRule_keeps (P := fun u => u.cmde = s.cmde) rfl fun k _ => hf k

theorem createEvent_cmde (s : State) (c : Memory) : (createEvent s c).1.cmde = s.cmde := by
  unfold createEvent
  split
  · rfl
  · split
    · rfl
    · split <;> rfl

theorem execStationCreate_effects (upTo : CommandStage) (s : State) :
    ∃ u, execStationCreate upTo s = settle u ∧ s.Effects u := by
  refine runRow_effects upTo s (fun c ha hc => ?_) fun c ha hc =>
    ⟨createEvent_effects ⟨by simpa using ha, hc⟩, createEvent_cmde s c⟩
  have hcode : commandCode c = 0x01#8 := by simpa using ha
  exact ⟨fun _ => hc, fun e => absurd (hcode.symm.trans e) (by decide), fun e => absurd (hcode.symm.trans e) (by decide)⟩

theorem execStationSetTemplate_effects (upTo : CommandStage) (s : State) :
    ∃ u, execStationSetTemplate upTo s = settle u ∧ s.Effects u := by
  refine runRow_effects upTo s (fun c ha hc => ?_) fun c ha hc =>
    ⟨setTemplateEvent_effects ⟨by simpa using ha, hc⟩, withHandle_cmde fun _ _ => guarded_cmde rfl⟩
  have hcode : commandCode c = 0x02#8 := by simpa using ha
  exact ⟨fun e => absurd (hcode.symm.trans e) (by decide), fun _ => hc, fun e => absurd (hcode.symm.trans e) (by decide)⟩

theorem execRuleDefine_effects (upTo : CommandStage) (s : State) :
    ∃ u, execRuleDefine upTo s = settle u ∧ s.Effects u := by
  refine runRow_effects upTo s (fun c ha hc => ?_) fun c ha hc =>
    ⟨defineEvent_effects ⟨by simpa using ha, hc⟩, withRule_cmde fun _ => guarded_cmde rfl⟩
  have hcode : commandCode c = 0x20#8 := by simpa using ha
  exact ⟨fun e => absurd (hcode.symm.trans e) (by decide), fun e => absurd (hcode.symm.trans e) (by decide), fun _ => hc⟩

/-- No check of an unknown code ever passes. -/
theorem execUnknownCommandCode_effects (upTo : CommandStage) (s : State) :
    ∃ u, execUnknownCommandCode upTo s = settle u ∧ s.Effects u :=
  runRow_effects upTo s (fun _ _ hc => nomatch hc) fun _ _ _ => ⟨.refl s, rfl⟩

/-! ### What is presented to STAB (R77, R80) -/

theorem execSighting_effects (i : Slot) (s : State) : ∃ u, execSighting i s = settle u ∧ s.Effects u := by
  unfold execSighting
  split
  · next he =>
    have hpop : s.Effects (s.popPresented i) := (State.Effect.takePresented i _ he rfl).one
    split
    · exact ⟨_, rfl, hpop.trans (State.effects_confirmAwake _ i)⟩
    · exact ⟨_, rfl, hpop⟩
  · exact ⟨s, rfl, .refl s⟩

theorem execAnnouncement_effects (i : Slot) (s : State) : ∃ u, execAnnouncement i s = settle u ∧ s.Effects u := by
  unfold execAnnouncement
  split
  · next he =>
    have hpop : s.Effects (s.popPresented i) := (State.Effect.takePresented i _ he rfl).one
    split
    · next hm => exact ⟨_, rfl, hpop.trans (State.effects_takeAnnouncement (State.popPresented_matched hm) _ _ _)⟩
    · exact ⟨_, rfl, hpop.trans (State.effects_post _ _ _)⟩
  · exact ⟨s, rfl, .refl s⟩

theorem execWakeTrigger_effects (i : Slot) (s : State) : ∃ u, execWakeTrigger i s = settle u ∧ s.Effects u := by
  unfold execWakeTrigger
  split
  · next he =>
    split
    · next hm => exact ⟨_, rfl, State.effects_iclsTrigger (State.matched_some hm).1 he rfl⟩
    · split
      · exact ⟨_, rfl, (State.Effect.dropTrigger i _ _ he rfl).one⟩
      · exact ⟨_, rfl, (State.Effect.takePresented i _ he rfl).one⟩
  · exact ⟨s, rfl, .refl s⟩

theorem execShed_effects (i : Slot) (s : State) : ∃ u, execShed i s = settle u ∧ s.Effects u := by
  unfold execShed
  split
  · next he =>
    have hpop : s.Effects (s.popPresented i) := (State.Effect.takePresented i _ he rfl).one
    split
    · exact ⟨_, rfl, hpop.trans (State.effects_raiseShed _ i)⟩
    · exact ⟨_, rfl, hpop⟩
  · exact ⟨s, rfl, .refl s⟩

/-! ### The rows of the port, of RESP, EMIT, STEER and ICLS -/

theorem execRegisterWrite_effects (part : WritePart) (data : List Byte) (s : State) :
    ∃ u, execRegisterWrite part data s = settle u ∧ s.Effects u := by
  cases part with
  | start addr => exact ⟨_, rfl, (State.effects_beginTransaction s).step (.port _ _ _ _ _ _)⟩
  | whole addr => exact ⟨_, rfl, (State.effects_beginTransaction s).trans (State.effects_writeEvent _ _ _)⟩
  | finish =>
    unfold execRegisterWrite
    simp only []
    split
    · exact ⟨_, rfl, State.effects_raiseNcs s data⟩
    · exact ⟨s, rfl, .refl s⟩
    · exact ⟨s, rfl, .refl s⟩

theorem execTake_effects (part : ReadPart) (s : State) : ∃ u, execTake part s = settle u ∧ s.Effects u := by
  cases part with
  | start first =>
    exact ⟨_, rfl, ((State.effects_beginTransaction s).trans (State.effects_readTake _ _)).step (.port _ _ _ _ _ _)⟩
  | whole first => exact ⟨_, rfl, (State.effects_beginTransaction s).trans (State.effects_readTake _ _)⟩
  | finish =>
    unfold execTake
    simp only []
    split
    · exact ⟨_, rfl, State.effects_raiseNcs s []⟩
    · exact ⟨s, rfl, .refl s⟩
    · exact ⟨s, rfl, .refl s⟩

theorem execFrameArrival_effects (part : ArrivalPart) (s : State) :
    ∃ u, execFrameArrival part s = settle u ∧ s.Effects u := by
  unfold execFrameArrival
  split
  · exact ⟨_, rfl, State.effects_startArrival s⟩
  · exact ⟨_, rfl, State.effects_finishArrival s _ _⟩
  · split
    · exact ⟨_, rfl, (State.effects_startArrival s).trans (State.effects_finishArrival _ _ _)⟩
    · exact ⟨s, rfl, .refl s⟩

theorem State.effects_answerNext (s : State) (job : AnswerJob) : s.Effects (s.popAnswerJob.answer job) :=
  (State.Effect.jobs _ _).one.trans (State.effects_answer _ job)

theorem execReplyJob_effects (s : State) : ∃ u, execReplyJob s = settle u ∧ s.Effects u := by
  unfold execReplyJob
  split
  · exact ⟨s, rfl, .refl s⟩
  · split
    · exact ⟨_, rfl, State.effects_answerNext s _⟩
    · exact ⟨s, rfl, .refl s⟩

theorem execProbeReplyJob_effects (s : State) : ∃ u, execProbeReplyJob s = settle u ∧ s.Effects u := by
  unfold execProbeReplyJob
  split
  · exact ⟨s, rfl, .refl s⟩
  · split
    · exact ⟨_, rfl, State.effects_answerNext s _⟩
    · exact ⟨s, rfl, .refl s⟩

theorem execSleepAckJob_effects (s : State) : ∃ u, execSleepAckJob s = settle u ∧ s.Effects u := by
  unfold execSleepAckJob
  split
  · exact ⟨s, rfl, .refl s⟩
  · exact ⟨_, rfl, (State.Effect.jobs _ _).one.trans (State.effects_acknowledge _ _)⟩

theorem execTransmissionBegin_effects (s : State) : ∃ u, execTransmissionBegin s = settle u ∧ s.Effects u := by
  unfold execTransmissionBegin
  split
  · next x rest hs hw =>
    split
    · exact ⟨_, rfl, (State.Effect.send x rest _ hs hw).one⟩
    · next hn => exact ⟨_, rfl, (State.Effect.unsent x rest hs hw hn).one⟩
  · exact ⟨s, rfl, .refl s⟩

theorem execTransmissionCompletion_effects (s : State) : ∃ u, execTransmissionCompletion s = settle u ∧ s.Effects u := by
  unfold execTransmissionCompletion
  split
  · next x w hs =>
    exact ⟨_, rfl, (State.Effect.outputs _).one.step
      (State.Effect.entryEnds (s := s.endTransfer w .complete) x _ (Emit.entries_sent hs))⟩
  · exact ⟨s, rfl, .refl s⟩

theorem execSteerSend_effects (s : State) : ∃ u, execSteerSend s = settle u ∧ s.Effects u := by
  unfold execSteerSend
  split
  · exact ⟨s, rfl, .refl s⟩
  · split
    · next r rest hqueue hready =>
      obtain ⟨hrunning, hlink, hnone⟩ := hready
      exact ⟨_, rfl, State.effects_steerOut _ fun hs => hs.send hqueue hrunning hlink hnone (fun _ => rfl) rfl⟩
    · exact ⟨s, rfl, .refl s⟩

theorem execAck_effects (run : List Byte) (s : State) : ∃ u, execAck run s = settle u ∧ s.Effects u := by
  unfold execAck
  split
  · exact ⟨_, rfl, (State.effects_takeAnswer s _ _).trans (State.effects_afterRun _)⟩
  · exact ⟨_, rfl, State.effects_afterRun s⟩

theorem execNak_effects (run : List Byte) (s : State) : ∃ u, execNak run s = settle u ∧ s.Effects u := by
  unfold execNak
  split
  · exact ⟨_, rfl, (State.effects_takeAnswer s _ _).trans (State.effects_afterRun _)⟩
  · exact ⟨_, rfl, State.effects_afterRun s⟩

theorem execAckTimeout_effects (n : Nat) (s : State) : ∃ u, execAckTimeout n s = settle u ∧ s.Effects u := by
  unfold execAckTimeout
  simp only []
  split
  · next f hf ht =>
    exact ⟨_, rfl, (State.effects_passMilliseconds s n).trans (State.effects_takeTimeout hf (by rw [ht]; rfl))⟩
  · exact ⟨_, rfl, State.effects_passMilliseconds s n⟩

theorem execDeferredStart_effects (s : State) : ∃ u, execDeferredStart s = settle u ∧ s.Effects u := by
  unfold execDeferredStart
  split
  · next h => exact ⟨_, rfl, State.effects_startPart h.2.1⟩
  · exact ⟨_, rfl, (State.Effect.steering _ s.steersTo_noStart).one⟩

theorem execFrameClassification_effects (extent : ClassificationExtent) (s : State) :
    ∃ u, execFrameClassification extent s = settle u ∧ s.Effects u := by
  cases extent
  · exact ⟨_, rfl, State.effects_classify _ s⟩
  · exact ⟨_, rfl, State.effects_classify _ s⟩

/-! ### Every command -/

/-- Every command settles, in a state that a chain of small events leads to. -/
theorem exec_effects (c : Instr) (s : State) : ∃ u, exec c s = settle u ∧ s.Effects u := by
  cases c with simp only [exec]
  | hardReset => exact ⟨_, rfl, State.Effect.hardReset.one⟩
  | softReset => exact ⟨_, rfl, (State.effects_unlessIssued s _).step .softReset⟩
  | registerWrite part data => exact execRegisterWrite_effects part data s
  | runSet => exact ⟨_, rfl, (State.effects_unlessIssued s _).trans (State.effects_runSet _)⟩
  | runCleared => exact ⟨_, rfl, (State.effects_unlessIssued s _).trans (State.effects_runCleared _)⟩
  | go =>
    exact ⟨_, rfl, ((State.effects_unlessIssued s _).step (.port _ _ _ _ _ _)).trans (State.effects_takeGo _)⟩
  | intEnableWrite value => exact ⟨_, rfl, (State.effects_beginTransaction s).step (.port _ _ _ _ _ _)⟩
  | cmdOverrunClear => exact ⟨_, rfl, State.effects_clearRow s _⟩
  | noticeOverrunClear => exact ⟨_, rfl, State.effects_clearRow s _⟩
  | configRefusedClear => exact ⟨_, rfl, State.effects_clearRow s _⟩
  | nameWriteRefusedClear => exact ⟨_, rfl, State.effects_clearRow s _⟩
  | configurationWrite f b => exact ⟨_, rfl, (State.effects_beginTransaction s).trans (State.effects_writeTiming _ f b)⟩
  | recognitionValueWrite first bytes =>
    exact ⟨_, rfl, (State.effects_beginTransaction s).trans (State.effects_writeRecognition _ _)⟩
  | noticeParameterWrite f b => exact ⟨_, rfl, (State.effects_beginTransaction s).trans (State.effects_writeNotice _ f b)⟩
  | take part => exact execTake_effects part s
  | stationCreate upTo => exact execStationCreate_effects upTo s
  | stationSetTemplate upTo => exact execStationSetTemplate_effects upTo s
  | stationClearTemplate upTo =>
    exact runRow_effects_of upTo s (by decide) fun c =>
      ⟨clearTemplateEvent_effects s c, withHandle_cmde fun _ _ => guarded_cmde rfl⟩
  | stationAddIdentifier upTo =>
    exact runRow_effects_of upTo s (by decide) fun c =>
      ⟨addIdentifierEvent_effects s c, withHandle_cmde fun _ _ => guarded_cmde rfl⟩
  | stationRemoveIdentifier upTo =>
    exact runRow_effects_of upTo s (by decide) fun c =>
      ⟨removeIdentifierEvent_effects s c, withHandle_cmde fun _ _ => guarded_cmde rfl⟩
  | stationAttachRule upTo =>
    exact runRow_effects_of upTo s (by decide) fun c =>
      ⟨attachRuleEvent_effects s c, withHandle_cmde fun _ _ => withRule_cmde fun _ => guarded_cmde rfl⟩
  | stationDetachRule upTo =>
    exact runRow_effects_of upTo s (by decide) fun c =>
      ⟨detachRuleEvent_effects s c, withHandle_cmde fun _ _ => withRule_cmde fun _ => guarded_cmde rfl⟩
  | stationRead upTo =>
    exact runRow_effects_of upTo s (by decide) fun c => by rw [readEvent_state]; exact ⟨.refl s, rfl⟩
  | stationSleep upTo =>
    exact runRow_effects_of upTo s (by decide) fun c => ⟨sleepEvent_effects s c, withHandle_cmde fun _ _ => by simp⟩
  | stationWake upTo =>
    exact runRow_effects_of upTo s (by decide) fun c => ⟨wakeEvent_effects s c, withHandle_cmde fun _ _ => by simp⟩
  | stationRetire upTo =>
    exact runRow_effects_of upTo s (by decide) fun c => ⟨retireEvent_effects s c, withHandle_cmde fun _ _ => by simp⟩
  | stationClearCounters upTo =>
    exact runRow_effects_of upTo s (by decide) fun c => ⟨clearCountersEvent_effects s c, withHandle_cmde fun _ _ => rfl⟩
  | stationFind upTo =>
    exact runRow_effects_of upTo s (by decide) fun c => by rw [findEvent_state]; exact ⟨.refl s, rfl⟩
  | ruleDefine upTo => exact execRuleDefine_effects upTo s
  | ruleDelete upTo =>
    exact runRow_effects_of upTo s (by decide) fun c =>
      ⟨deleteEvent_effects s c, withRule_cmde fun _ => guarded_cmde rfl⟩
  | ruleRead upTo =>
    exact runRow_effects_of upTo s (by decide) fun c => by rw [ruleReadEvent_state]; exact ⟨.refl s, rfl⟩
  | steerRestart upTo =>
    exact runRow_effects_of upTo s (by decide) fun c => ⟨State.effects_restartLink s, by simp [restartEvent]⟩
  | unknownCommandCode upTo => exact execUnknownCommandCode_effects upTo s
  | frameArrival part => exact execFrameArrival_effects part s
  | frameClassification extent => exact execFrameClassification_effects extent s
  | sighting slot => exact execSighting_effects slot s
  | announcement slot => exact execAnnouncement_effects slot s
  | wakeTrigger slot => exact execWakeTrigger_effects slot s
  | shed slot => exact execShed_effects slot s
  | leaseExpiry slot elapsed => exact ⟨_, rfl, (State.Effect.seconds elapsed).one.trans (State.effects_expireLease _ slot)⟩
  | intervalExpiry slot elapsed =>
    exact ⟨_, rfl, (State.Effect.units elapsed).one.trans (State.effects_expireInterval _ slot)⟩
  | replyJob => exact execReplyJob_effects s
  | probeReplyJob => exact execProbeReplyJob_effects s
  | sleepAckJob => exact execSleepAckJob_effects s
  | transmissionBegin => exact execTransmissionBegin_effects s
  | transmissionCompletion => exact execTransmissionCompletion_effects s
  | steerSend => exact execSteerSend_effects s
  | ack run => exact execAck_effects run s
  | nak run => exact execNak_effects run s
  | steerMessageDiscarded run => exact ⟨_, rfl, State.effects_afterRun s⟩
  | ackTimeout elapsed => exact execAckTimeout_effects elapsed s
  | deferredStart => exact execDeferredStart_effects s
  | noticeHoldoff elapsed => exact ⟨_, rfl, State.effects_passMilliseconds s elapsed⟩
  | leaseSecondBoundary => exact ⟨_, rfl, (State.Effect.seconds 1).one⟩
  | ageBoundary => exact ⟨_, rfl, State.effects_passMilliseconds s 1⟩
  | lineIdle => exact ⟨_, rfl, (State.Effect.steering _ s.steersTo_footed).one⟩

/-- What every small event and the pins keep, every command keeps. -/
theorem exec_keeps {P : State → Prop} (hP : ∀ s u, State.Effect s u → P s → P u) (hpins : ∀ s, P s → P s.drivePins)
    {c : Instr} {s t : State} (hs : P s) (ht : exec c s = .next t) : P t := by
  obtain ⟨u, hu, heffects⟩ := exec_effects c s
  rw [hu, settle_next] at ht
  rw [ht]
  exact hpins u (heffects.keeps hP hs)

end Sys2Proof.Machine
end

section
/-! PROOF. What every command leaves of the pins, the notices and the answer buffers (R197, R76, R188, R96, R131). -/

namespace Sys2Proof.Machine

/-! ### The pins (R197, R76) -/

theorem State.Effect.pending {s u : State} (h : s.Effect u) : u.pending = s.pending := by
  cases h with
  | hardReset => rfl
  | softReset => rfl
  | _ => simp

theorem IntakeSlot.isFree_iff (x : IntakeSlot) : x.isFree = true ↔ x = .free := by
  cases x <;> simp [IntakeSlot.isFree]

/-- R76: the intake port shows ready in RUNNING with a slot free. -/
theorem State.readyForFrames_iff (s : State) :
    s.readyForFrames = true ↔ s.steer.mode = .running ∧ ∃ j : Fin 4, s.icls.slots[j.val] = .free := by
  have hfree : (lowest IntakeSlot.isFree s.icls.slots).isSome = true ↔ ∃ j : Fin 4, s.icls.slots[j.val] = .free := by
    rw [← not_iff_not, Bool.not_eq_true, Option.isSome_eq_false_iff, Option.isNone_iff_eq_none, lowest_none]
    simp [← IntakeSlot.isFree_iff]
  simp [State.readyForFrames, hfree]

/-- R197: NINT is asserted while INT_ENABLE is 1 and one of its five conditions holds. -/
theorem State.nintAsserted_iff (s : State) : s.nintAsserted = true ↔ s.mport.intEnable = true ∧
    (s.mport.settings.noticeTrigger.toNat ≤
        (s.nq.queue.filter fun n => !s.mport.settings.masks n.noticeClass).length ∨
      (∃ n ∈ s.nq.queue, s.mport.settings.masks n.noticeClass = false ∧
        s.mport.settings.noticeHoldoff.toNat ≤ n.age.toNat) ∨
      (∃ n ∈ s.nq.queue, n.noticeClass = .urgent ∧ s.mport.settings.masks .urgent = false) ∨
      s.nq.overrun = true ∨ s.cmde.overrun = true) := by
  have hurgent : (∃ n ∈ s.nq.queue, s.mport.settings.masks n.noticeClass = false ∧ n.noticeClass = .urgent) ↔
      ∃ n ∈ s.nq.queue, n.noticeClass = .urgent ∧ s.mport.settings.masks .urgent = false :=
    exists_congr fun n => and_congr_right fun _ =>
      ⟨fun ⟨hm, hu⟩ => ⟨hu, hu ▸ hm⟩, fun ⟨hu, hm⟩ => ⟨hu ▸ hm, hu⟩⟩
  rw [← hurgent]
  simp only [State.nintAsserted, State.nintConditions, Bool.and_eq_true, Bool.or_eq_true, decide_eq_true_eq]
  simp [unmasked, Notice.pastHoldoff, or_assoc]

/-- Settles O2: every command settles (`exec_effects`), and settling drives both pins by their conditions. -/
theorem everyCommandDrivesThePins : Obligations.EveryCommandDrivesThePins := by
  unfold Obligations.EveryCommandDrivesThePins
  intro c s
  obtain ⟨u, hu, heffects⟩ := exec_effects c s
  have hpending : u.pending = s.pending :=
    heffects.keeps (P := fun v => v.pending = s.pending) (fun _ _ he hv => he.pending.trans hv) rfl
  exact ⟨u.drivePins, hu, hpending, u.nintAsserted_iff, u.readyForFrames_iff⟩

/-! ### The notices (R188) -/

theorem Nq.reset_wellFormed : Nq.reset.WellFormed := ⟨Nat.zero_le _, List.nodup_nil, fun _ h => nomatch h⟩

theorem State.Effect.notices {s u : State} (h : s.Effect u) (hs : s.nq.WellFormed) : u.nq.WellFormed := by
  cases h with
  | post p => exact Nq.post_wellFormed hs p
  | takeNotice => exact Nq.dropHead_wellFormed hs
  | age n => exact Nq.age_wellFormed hs n
  | noticeOverrun b => exact Nq.overrun_wellFormed hs b
  | vacate i st _ _ _ _ => exact State.vacate_notices hs i st
  | wake i st _ cause _ _ => exact State.wakeUp_notices hs i st cause
  | hardReset => exact Nq.reset_wellFormed
  | softReset => exact Nq.reset_wellFormed
  | _ => simpa using hs

/-- Settles O50: a post, a take and an age boundary keep R188, and no other event touches the queue. -/
theorem noticesKept : Obligations.NoticesKept := by
  unfold Obligations.NoticesKept
  intro c s t hs ht
  exact exec_keeps (P := fun v => v.nq.WellFormed) (fun _ _ he => he.notices) (fun _ hv => hv) hs ht

/-! ### The answer buffers (R96, R131) -/

/-- A queue of no more entries, that refer to the same answer buffers. -/
theorem AnswersMatch.congr {e e' : Emit} {v : Vector (Option (List Byte)) 8} (h : AnswersMatch e v)
    (hsize : e'.size ≤ e.size) (hanswers : e'.answers = e.answers) : AnswersMatch e' v :=
  ⟨hsize.trans h.1, by rw [hanswers]; exact h.2.1, by rw [hanswers]; exact h.2.2⟩

/-- An entry of another kind joins a queue with room. -/
theorem AnswersMatch.join {e : Emit} {v : Vector (Option (List Byte)) 8} {x : Entry} (h : AnswersMatch e v)
    (hx : x.answerBuffer = none) (hroom : e.size < Config.emissionCapacity) :
    AnswersMatch { e with waiting := e.waiting ++ [x] } v :=
  h.append hx (if_pos hroom)

theorem AnswersMatch.joined {e : Emit} {v : Vector (Option (List Byte)) 8} {x : Entry} (h : AnswersMatch e v)
    (hx : x.answerBuffer = none) : AnswersMatch (e.joined x) v := by
  unfold Emit.joined
  split
  · next hroom => exact h.join hx hroom
  · exact h

theorem AnswersMatch.reset : AnswersMatch Emit.reset Resp.reset.buffers := by
  refine ⟨Nat.zero_le _, List.nodup_nil, fun b => ?_⟩
  simp [Resp.reset, Emit.answers, Emit.entries, Emit.reset]

theorem Emit.entries_send {e : Emit} {x : Entry} {rest : List Entry} (w : Transfer) (hs : e.sending = none)
    (hw : e.waiting = x :: rest) : ({ sending := some (x, w), waiting := rest } : Emit).entries = e.entries := by
  simp [Emit.entries, hs, hw]

theorem Emit.entries_unsent {e : Emit} {x : Entry} {rest : List Entry} (hs : e.sending = none)
    (hw : e.waiting = x :: rest) : e.entries = x :: ({ sending := none, waiting := rest } : Emit).entries := by
  simp [Emit.entries, hs, hw]

theorem State.attempt_emit {s : State} {i : Slot} {st : Station} (h : s.station i = some st) (a : Address) :
    (s.attempt i st a).emit = s.emit.joined { kind := .wake i a, port := st.port, segment := st.segment } := by
  rw [State.attempt_eq h]

theorem State.wakeUp_emit (s : State) (i : Slot) (st : Station) (c : WakeCause) :
    (s.wakeUp i st c).emit = s.emit.joined { kind := .wake i st.address, port := st.port, segment := st.segment } := by
  rw [State.wakeUp_eq]

/-- An entry that leaves unsent is no ANSWER entry: its buffer would hold a frame. -/
theorem AnswersMatch.unsent {s : State} {x : Entry} {e : Emit} (h : AnswersMatch s.emit s.resp.buffers)
    (he : s.emit.entries = x :: e.entries) (hx : s.entryBytes x.kind = none) : AnswersMatch e s.resp.buffers := by
  have hnone : x.answerBuffer = none := by
    cases hk : x.kind with
    | answer b =>
      have hmem : b ∈ s.emit.answers := by
        simp [Emit.answers, he, Entry.answerBuffer, hk]
      have hsome := (h.2.2 b).mpr hmem
      simp only [State.entryBytes, hk] at hx
      rw [hx] at hsome
      cases hsome
    | _ => simp [Entry.answerBuffer, hk]
  refine h.congr ?_ ?_
  · rw [Emit.size_eq_length, Emit.size_eq_length, he]
    exact Nat.le_succ _
  · simp [Emit.answers, he, hnone]

theorem State.Effect.answers {s u : State} (h : s.Effect u) (hs : AnswersMatch s.emit s.resp.buffers) :
    AnswersMatch u.emit u.resp.buffers := by
  cases h with
  | claim b frame p g hb hroom => exact hs.claim hb hroom
  | withdraw i a => exact hs.withdraw i a
  | send x rest w hsending hwaiting =>
    have hentries := Emit.entries_send w hsending hwaiting
    exact hs.congr (by rw [Emit.size_eq_length, Emit.size_eq_length, hentries]) (by simp only [Emit.answers, hentries])
  | unsent x rest hsending hwaiting hx => exact hs.unsent (Emit.entries_unsent hsending hwaiting) hx
  | entryEnds x e hperm => simpa using hs.drop hperm { s with emit := e } rfl
  | wake i st _ cause hst _ => simpa [State.wakeUp_emit] using hs.joined rfl
  | retry i st x hst _ _ => simpa [State.attempt_emit hst] using hs.joined rfl
  | releaseWaking i st cause b q _ _ _ hroom _ _ _ => exact hs.join rfl hroom
  | passFrame j rest f p g _ hroom => exact hs.join rfl hroom
  | passTrigger i e j f p g _ _ hroom => exact hs.join rfl hroom
  | hardReset => exact AnswersMatch.reset
  | softReset => exact AnswersMatch.reset
  | _ => simpa using hs

/-- Settles O51: a claim takes a FREE buffer and a place together, and an entry leaves with its buffer. -/
theorem answersKept : Obligations.AnswersKept := by
  unfold Obligations.AnswersKept
  intro c s t hs ht
  exact exec_keeps (P := fun v => AnswersMatch v.emit v.resp.buffers) (fun _ _ he => he.answers) (fun _ hv => hv) hs ht

end Sys2Proof.Machine
end

section
/-! PROOF. The held buffers and the waking contexts: each stands exactly while a WAKING record or a HELD entry names it (R111, R122). -/

namespace Sys2Proof.Machine

/-! ### Changes of one station -/

/-- What a field of the station of a slot is after one station is set. -/
theorem State.setStation_bind {β : Type} (s : State) (i j : Slot) (st : Station) (f : Station → Option β) :
    ((s.setStation i st).station j).bind f = if i = j then f st else (s.station j).bind f := by
  rw [State.setStation_station]
  split <;> simp

/-- A field that the new station of a slot has as the old one had it is the same at every slot. -/
theorem State.setStation_bind_same {β : Type} {s : State} {i : Slot} {st st' : Station} (f : Station → Option β)
    (h : s.station i = some st) (hf : f st' = f st) (j : Slot) :
    ((s.setStation i st').station j).bind f = (s.station j).bind f := by
  rw [State.setStation_bind]
  split
  · next e => subst e; simp [h, hf]
  · rfl

/-- A field that a VACANT record does not have is the same at every slot when the vacated or enrolled station has none. -/
theorem State.vacate_bind {β : Type} {s : State} {i : Slot} {st : Station} (f : Station → Option β)
    (h : s.station i = some st) (hf : f st = none) (j : Slot) :
    ((s.vacate i st).station j).bind f = (s.station j).bind f := by
  rw [State.vacate_station]
  split
  · next e => subst e; simp [h, hf]
  · rfl

theorem State.enrol_bind {β : Type} {s : State} {i : Slot} {st : Station} (f : Station → Option β)
    (h : s.station i = none) (hf : f st = none) (j : Slot) :
    ((s.setStation i st).station j).bind f = (s.station j).bind f := by
  rw [State.setStation_bind]
  split
  · next e => subst e; simp [h, hf]
  · rfl

theorem StationState.notWaking.heldFrame {q : StationState} (h : q.notWaking) : q.heldFrame = none := by
  cases q with
  | waking cause held => exact absurd rfl (h cause held)
  | _ => rfl

theorem Station.wakingAddress_eq_none {st : Station} (h : st.state.notWaking) : st.wakingAddress = none := by
  unfold Station.wakingAddress
  split
  · next cause held e => exact absurd e (h cause held)
  all_goals rfl

theorem StationState.passSeconds_heldFrame (q : StationState) (n : Nat) : (q.passSeconds n).heldFrame = q.heldFrame := by
  cases q with
  | asleep l => cases l <;> rfl
  | _ => rfl

theorem Station.passSeconds_wakingAddress (st : Station) (n : Nat) :
    ({ st with state := st.state.passSeconds n } : Station).wakingAddress = st.wakingAddress := by
  cases h : st.state with
  | asleep l => cases l <;> simp [Station.wakingAddress, StationState.passSeconds, h]
  | _ => simp [Station.wakingAddress, StationState.passSeconds, h]

/-! ### The held buffers (R122) -/

theorem State.HoldMatches.congr {s u : State} (h : s.HoldMatches) (he : u.emit.helds = s.emit.helds)
    (hh : u.hold = s.hold) (hb : ∀ i, u.heldBy i = s.heldBy i) : u.HoldMatches := by
  unfold State.HoldMatches at h ⊢
  simpa only [he, hh, hb] using h

/-- One station is set that names the same held frame. -/
theorem State.HoldMatches.setStation {s : State} (h : s.HoldMatches) {i : Slot} {st st' : Station}
    (hst : s.station i = some st) (hf : st'.state.heldFrame = st.state.heldFrame) : (s.setStation i st').HoldMatches :=
  h.congr rfl rfl fun j => State.setStation_bind_same (fun st => st.state.heldFrame) hst hf j

/-- The same for a state with the station table of that one. -/
theorem State.HoldMatches.setStationOf {s u : State} (h : s.HoldMatches) {i : Slot} {st st' : Station}
    (hst : s.station i = some st) (hstab : u.stab = (s.setStation i st').stab)
    (hf : st'.state.heldFrame = st.state.heldFrame) (he : u.emit.helds = s.emit.helds) (hh : u.hold = s.hold) : u.HoldMatches :=
  (h.setStation hst hf).congr he hh fun j => by unfold State.heldBy; rw [State.station_of_stab hstab]

theorem Emit.helds_joined {e : Emit} {x : Entry} (hx : x.heldBuffer = none) : (e.joined x).helds = e.helds := by
  unfold Emit.joined
  split
  · rw [Emit.helds_append, hx]; simp
  · rfl

theorem State.heldBy_wakeUp {s : State} {i : Slot} {st : Station} {l : Option LeaseRun} (hst : s.station i = some st)
    (hasleep : st.state = .asleep l) (cause : WakeCause) (j : Slot) : (s.wakeUp i st cause).heldBy j = s.heldBy j := by
  rw [State.wakeUp_eq]
  exact State.setStation_bind_same (fun st => st.state.heldFrame) hst (by simp [hasleep, StationState.heldFrame]) j

/-- A free buffer is neither named nor queued, and a frame in it is RESERVED for the one record that names it. -/
theorem State.HoldMatches.reserve {s : State} (h : s.HoldMatches) {i : Slot} {st : Station} {cause : WakeCause}
    {b : Fin 16} {bytes : List Byte} (hst : s.station i = some st) (hw : st.state = .waking cause none)
    (hfree : s.hold[b.val] = .free) :
    (({ s with hold := tset s.hold b (.reserved bytes) } : State).setStation i
      { st with state := .waking cause (some b) }).HoldMatches := by
  obtain ⟨hnodup, hqueued, hreserved, hunique⟩ := h
  have hnotQueued : b ∉ s.emit.helds := fun hb => by simpa [hfree, HeldBuffer.isQueued] using (hqueued b).mpr hb
  have hnotHeld : ∀ j, s.heldBy j ≠ some b := fun j hj => by
    simpa [hfree, HeldBuffer.isReserved] using (hreserved b).mpr ⟨j, hj⟩
  have hheld : ∀ j, (({ s with hold := tset s.hold b (.reserved bytes) } : State).setStation i
      { st with state := .waking cause (some b) }).heldBy j = if i = j then some b else s.heldBy j := fun j =>
    State.setStation_bind _ i j _ fun st => st.state.heldFrame
  have hi : s.heldBy i = none := by simp [State.heldBy, hst, hw, StationState.heldFrame]
  refine ⟨hnodup, fun k => ?_, fun k => ?_, fun j k c hj hk => ?_⟩
  · simp only [State.setStation_hold, tset_get, State.setStation_emit]
    by_cases hbk : b = k
    · subst hbk; simp [HeldBuffer.isQueued, hnotQueued]
    · simpa [hbk] using hqueued k
  · simp only [State.setStation_hold, tset_get, hheld]
    by_cases hbk : b = k
    · subst hbk; simp only [if_true, HeldBuffer.isReserved, true_iff]; exact ⟨i, by simp⟩
    · simp only [hbk, if_false, hreserved k]
      constructor
      · rintro ⟨j, hj⟩
        have hij : i ≠ j := fun e => by subst e; rw [hi] at hj; cases hj
        exact ⟨j, by simpa [hij] using hj⟩
      · rintro ⟨j, hj⟩
        split at hj
        · cases hj; exact absurd rfl hbk
        · exact ⟨j, hj⟩
  · rw [hheld] at hj hk
    split at hj
    · next e =>
      subst e
      split at hk
      · next e => exact e
      · cases hj; exact absurd hk (hnotHeld k)
    · split at hk
      · next e => cases hk; exact absurd hj (hnotHeld j)
      · exact hunique j k c hj hk

/-- The waking ends, and its held frame, if there is one, is discarded (R127). -/
theorem State.HoldMatches.endWaking {s : State} (h : s.HoldMatches) {i : Slot} {st : Station} {cause : WakeCause}
    {held : Option (Fin 16)} {q : StationState} (hst : s.station i = some st) (hw : st.state = .waking cause held)
    (hq : q.notWaking) : (((s.cancelWaking i).discardHeld held).setStation i { st with state := q }).HoldMatches := by
  have hi : s.heldBy i = held := by simp [State.heldBy, hst, hw, StationState.heldFrame]
  cases held with
  | none =>
    exact State.HoldMatches.setStation (s := s.cancelWaking i) (h.congr rfl rfl fun _ => rfl) hst
      (by rw [hw]; exact hq.heldFrame)
  | some b =>
    obtain ⟨hnodup, hqueued, hreserved, hunique⟩ := h
    have hb : s.hold[b.val].isReserved = true := (hreserved b).mpr ⟨i, hi⟩
    have hnotQueued : b ∉ s.emit.helds := fun hm => by
      have := (hqueued b).mpr hm
      cases hk : s.hold[b.val] <;> simp [hk, HeldBuffer.isReserved, HeldBuffer.isQueued] at hb this
    have hheld : ∀ j, (((s.cancelWaking i).discardHeld (some b)).setStation i { st with state := q }).heldBy j =
        if i = j then none else s.heldBy j := fun j => by
      have := State.setStation_bind ((s.cancelWaking i).discardHeld (some b)) i j { st with state := q }
        fun st => st.state.heldFrame
      simp only [hq.heldFrame] at this
      exact this
    have hhold : (((s.cancelWaking i).discardHeld (some b)).setStation i { st with state := q }).hold =
      tset s.hold b .free := rfl
    refine ⟨hnodup, fun k => ?_, fun k => ?_, fun j k c hj hk => ?_⟩
    · show _ ↔ k ∈ s.emit.helds
      rw [hhold, tset_get]
      by_cases hbk : b = k
      · subst hbk; simp [HeldBuffer.isQueued, hnotQueued]
      · simpa [hbk] using hqueued k
    · rw [hhold, tset_get]
      simp only [hheld]
      by_cases hbk : b = k
      · subst hbk
        simp only [if_true, HeldBuffer.isReserved, Bool.false_eq_true, false_iff, not_exists]
        intro j hj
        split at hj
        · cases hj
        · next hij => exact hij (hunique i j b hi hj)
      · simp only [hbk, if_false, hreserved k]
        refine exists_congr fun j => ?_
        split
        · next e => subst e; rw [hi]; simp [hbk]
        · rfl
    · rw [hheld] at hj hk
      split at hj
      · cases hj
      · split at hk
        · cases hk
        · exact hunique j k c hj hk

/-- The waking ends, and its held frame waits for emission (R126). -/
theorem State.HoldMatches.release {s : State} (h : s.HoldMatches) {i : Slot} {st : Station} {cause : WakeCause}
    {b : Fin 16} {q : StationState} (hst : s.station i = some st) (hw : st.state = .waking cause (some b))
    (hq : q.notWaking) : ({ s.setStation i { st with state := q } with
      wake := tset s.wake i none
      emit := { s.emit with waiting := s.emit.waiting ++ [{ kind := .held b, port := st.port, segment := st.segment }] }
      hold := match s.hold[b.val] with
        | .reserved bytes => tset s.hold b (.queued bytes)
        | .free | .queued _ => s.hold } : State).HoldMatches := by
  obtain ⟨hnodup, hqueued, hreserved, hunique⟩ := h
  have hi : s.heldBy i = some b := by simp [State.heldBy, hst, hw, StationState.heldFrame]
  have hb : s.hold[b.val].isReserved = true := (hreserved b).mpr ⟨i, hi⟩
  obtain ⟨bytes, hbytes⟩ : ∃ bytes, s.hold[b.val] = .reserved bytes := by
    cases hk : s.hold[b.val] with
    | reserved bytes => exact ⟨bytes, rfl⟩
    | free => simp [hk, HeldBuffer.isReserved] at hb
    | queued _ => simp [hk, HeldBuffer.isReserved] at hb
  have hnotQueued : b ∉ s.emit.helds := fun hm => by
    simpa [hbytes, HeldBuffer.isQueued] using (hqueued b).mpr hm
  simp only [hbytes]
  have hheld : ∀ j, ({ s.setStation i { st with state := q } with
      wake := tset s.wake i none
      emit := { s.emit with waiting := s.emit.waiting ++ [{ kind := .held b, port := st.port, segment := st.segment }] }
      hold := tset s.hold b (.queued bytes) } : State).heldBy j = if i = j then none else s.heldBy j := fun j => by
    have := State.setStation_bind s i j { st with state := q } fun st => st.state.heldFrame
    simp only [hq.heldFrame] at this
    exact this
  have hhelds : ({ s.emit with
      waiting := s.emit.waiting ++ [{ kind := .held b, port := st.port, segment := st.segment }] } : Emit).helds =
      s.emit.helds ++ [b] := by rw [Emit.helds_append]; rfl
  refine ⟨?_, fun k => ?_, fun k => ?_, fun j k c hj hk => ?_⟩
  · rw [hhelds, ← List.concat_eq_append]
    exact hnodup.concat hnotQueued
  · rw [hhelds, List.mem_append, List.mem_singleton, tset_get]
    by_cases hbk : b = k
    · subst hbk; simp [HeldBuffer.isQueued]
    · simpa [hbk, Ne.symm hbk] using hqueued k
  · rw [tset_get]
    simp only [hheld]
    by_cases hbk : b = k
    · subst hbk
      simp only [if_true, HeldBuffer.isReserved, Bool.false_eq_true, false_iff, not_exists]
      intro j hj
      split at hj
      · cases hj
      · next hij => exact hij (hunique i j b hi hj)
    · simp only [hbk, if_false, hreserved k]
      refine exists_congr fun j => ?_
      split
      · next e => subst e; rw [hi]; simp [hbk]
      · rfl
  · rw [hheld] at hj hk
    split at hj
    · cases hj
    · split at hk
      · cases hk
      · exact hunique j k c hj hk

/-- An entry leaves the queue with its resource (R136). -/
theorem State.HoldMatches.entryEnds {s : State} (h : s.HoldMatches) {x : Entry} {e : Emit}
    (hperm : s.emit.entries.Perm (x :: e.entries)) : (({ s with emit := e } : State).freeResource x.kind).HoldMatches := by
  have hhelds : s.emit.helds.Perm (x.heldBuffer.toList ++ e.helds) := by
    refine (hperm.filterMap Entry.heldBuffer).trans ?_
    cases hx : x.heldBuffer <;> simp [hx, Emit.helds]
  obtain ⟨hnodup, hqueued, hreserved, hunique⟩ := h
  have hnodup' := hhelds.nodup_iff.mp hnodup
  cases hk : x.kind with
  | held b =>
    simp only [Entry.heldBuffer, hk, Option.toList_some, List.singleton_append] at hhelds hnodup'
    have hb : s.hold[b.val].isQueued = true := (hqueued b).mpr (hhelds.mem_iff.mpr List.mem_cons_self)
    refine ⟨(List.nodup_cons.mp hnodup').2, fun k => ?_, fun k => ?_, hunique⟩
    · show (tset s.hold b .free)[k.val].isQueued = true ↔ k ∈ e.helds
      rw [tset_get]
      by_cases hbk : b = k
      · subst hbk; simpa [HeldBuffer.isQueued] using (List.nodup_cons.mp hnodup').1
      · simp only [hbk, if_false, hqueued k, hhelds.mem_iff, List.mem_cons, Ne.symm hbk, false_or]
    · show (tset s.hold b .free)[k.val].isReserved = true ↔ ∃ i, s.heldBy i = some k
      rw [tset_get]
      by_cases hbk : b = k
      · subst hbk
        rw [← hreserved b]
        cases hh : s.hold[b.val] <;> simp [hh, HeldBuffer.isReserved, HeldBuffer.isQueued] at hb ⊢
      · simpa [hbk] using hreserved k
  | _ =>
    simp only [Entry.heldBuffer, hk, Option.toList_none, List.nil_append] at hhelds hnodup'
    refine ⟨hnodup', fun k => ?_, hreserved, hunique⟩
    show s.hold[k.val].isQueued = true ↔ k ∈ e.helds
    rw [hqueued k, hhelds.mem_iff]

theorem State.HoldMatches.unsent {s : State} (h : s.HoldMatches) {x : Entry} {e : Emit}
    (he : s.emit.entries = x :: e.entries) (hx : s.entryBytes x.kind = none) : ({ s with emit := e } : State).HoldMatches := by
  refine h.congr ?_ rfl fun _ => rfl
  have hnone : x.heldBuffer = none := by
    cases hk : x.kind with
    | held b =>
      have hqueued := (h.2.1 b).mpr (by simp [Emit.helds, he, Entry.heldBuffer, hk])
      simp only [State.entryBytes, hk] at hx
      cases hb : s.hold[b.val] <;> simp [hb, HeldBuffer.isQueued] at hqueued hx
    | _ => simp [Entry.heldBuffer, hk]
  simp [Emit.helds, he, hnone]

/-- With every record VACANT, no entry and every buffer free there is nothing to name. -/
theorem State.HoldMatches.of_reset {s : State} (hs : ∀ i, s.station i = none) (he : s.emit = Emit.reset)
    (hh : s.hold = Vector.replicate 16 .free) : s.HoldMatches := by
  have hheld : ∀ i, s.heldBy i = none := fun i => by simp [State.heldBy, hs i]
  have hhelds : s.emit.helds = [] := by rw [he]; rfl
  refine ⟨by rw [hhelds]; exact List.nodup_nil, fun b => ?_, fun b => ?_, fun i j b hi => ?_⟩
  · simp [hh, hhelds, HeldBuffer.isQueued]
  · simp [hh, hheld, HeldBuffer.isReserved]
  · rw [hheld] at hi; cases hi

theorem State.hardReset_station (s : State) (i : Slot) : s.hardReset.station i = none := by
  simp [State.hardReset, State.station, State.reset]

theorem State.softReset_station (s : State) (i : Slot) : s.softReset.station i = none := by
  simp [State.softReset, State.station, Record.softReset]

theorem State.Effect.held {s u : State} (h : s.Effect u) (hs : s.HoldMatches) : u.HoldMatches := by
  cases h with
  | withdraw i a => exact hs.congr (by simp) rfl fun _ => rfl
  | claim b frame p g _ _ => exact hs.congr (by rw [Emit.helds_append]; simp [Entry.heldBuffer]) rfl fun _ => rfl
  | send x rest w hsending hwaiting =>
    exact hs.congr (by simp only [Emit.helds, Emit.entries_send w hsending hwaiting]) rfl fun _ => rfl
  | unsent x rest hsending hwaiting hx => exact hs.unsent (Emit.entries_unsent hsending hwaiting) hx
  | entryEnds x e hperm => exact hs.entryEnds hperm
  | note i st _ _ _ _ _ hst => exact hs.setStation hst rfl
  | restate i st q _ hst hq _ => exact hs.setStation hst (by rw [hq.1.heldFrame, hq.2.1.heldFrame])
  | seconds n =>
    refine hs.congr rfl rfl fun i => ?_
    unfold State.heldBy
    rw [State.passSeconds_station]
    cases s.station i <;> simp [StationState.passSeconds_heldFrame]
  | enrol c i _ _ _ hvacant => exact hs.congr rfl rfl fun j => State.enrol_bind (fun st => st.state.heldFrame) hvacant rfl j
  | template i st t hst _ _ => exact hs.setStation hst rfl
  | addIdentifier i st id flag hst _ _ _ => exact hs.setStationOf hst rfl rfl rfl rfl
  | removeIdentifier i st id hst _ => exact hs.setStationOf hst rfl rfl rfl rfl
  | attachRule i st n hst _ => exact hs.setStationOf hst rfl rfl rfl rfl
  | detachRule i st n hst => exact hs.setStationOf hst rfl rfl rfl rfl
  | vacate i st _ hst hq _ =>
    exact hs.congr rfl rfl fun j => State.vacate_bind (fun st => st.state.heldFrame) hst hq.heldFrame j
  | wake i st l cause hst hasleep =>
    exact hs.congr (by rw [State.wakeUp_emit]; exact Emit.helds_joined rfl) (by simp) (State.heldBy_wakeUp hst hasleep cause)
  | hold i st cause b bytes hst hw hfree => exact hs.reserve hst hw hfree
  | retry i st x hst _ _ =>
    rw [State.attempt_eq hst]
    exact hs.setStationOf hst rfl rfl (Emit.helds_joined rfl) rfl
  | endWaking i st cause held q _ hst hw hq _ _ => exact hs.endWaking hst hw hq
  | releaseWaking i st cause b q _ hst hw _ hq _ _ => exact hs.release hst hw hq
  | passFrame j rest f p g _ _ => exact hs.congr (by simp [Emit.helds_append, Entry.heldBuffer]) rfl fun _ => rfl
  | passTrigger i e j f p g _ _ _ => exact hs.congr (by simp [Emit.helds_append, Entry.heldBuffer]) rfl fun _ => rfl
  | hardReset => exact .of_reset (State.hardReset_station s) rfl rfl
  | softReset => exact .of_reset (State.softReset_station s) rfl rfl
  | _ => exact hs.congr rfl rfl fun _ => rfl

/-- Settles O52: a frame is reserved with the record that names it, queued with its HELD entry, and freed with either. -/
theorem heldBuffersKept : Obligations.HeldBuffersKept := by
  unfold Obligations.HeldBuffersKept
  intro c s t hs ht
  exact exec_keeps (fun _ _ he => he.held) (fun _ hv => hv.congr rfl rfl fun _ => rfl) hs ht

/-! ### The waking contexts (R111) -/

theorem State.ContextsMatch.congr {s u : State} (h : s.ContextsMatch) (hw : u.wake = s.wake)
    (hb : ∀ i, (u.station i).bind Station.wakingAddress = (s.station i).bind Station.wakingAddress) : u.ContextsMatch :=
  fun i => by rw [hw, hb]; exact h i

/-- One station is set that is WAKING as before, with the same address. -/
theorem State.ContextsMatch.setStation {s : State} (h : s.ContextsMatch) {i : Slot} {st st' : Station}
    (hst : s.station i = some st) (hf : st'.wakingAddress = st.wakingAddress) : (s.setStation i st').ContextsMatch :=
  h.congr rfl fun j => State.setStation_bind_same _ hst hf j

/-- The same for a state with the station table of that one. -/
theorem State.ContextsMatch.setStationOf {s u : State} (h : s.ContextsMatch) {i : Slot} {st st' : Station}
    (hst : s.station i = some st) (hstab : u.stab = (s.setStation i st').stab)
    (hf : st'.wakingAddress = st.wakingAddress) (hw : u.wake = s.wake) : u.ContextsMatch :=
  (h.setStation hst hf).congr hw fun j => by rw [State.station_of_stab hstab]

/-- The context of one slot is replaced together with its station. -/
theorem State.ContextsMatch.replace {s u : State} (h : s.ContextsMatch) {i : Slot} {st : Station}
    {x : Option WakingContext} (hw : u.wake = tset s.wake i x) (hstab : u.stab = (s.setStation i st).stab)
    (hx : x.map (·.address) = st.wakingAddress) : u.ContextsMatch := by
  intro j
  rw [State.station_of_stab hstab, State.setStation_bind, hw, tset_get]
  split
  · exact hx
  · exact h j

theorem State.ContextsMatch.of_reset {s : State} (hs : ∀ i, s.station i = none)
    (hw : s.wake = Vector.replicate 64 none) : s.ContextsMatch := fun i => by simp [hs i, hw]

theorem Station.wakingAddress_congr {st st' : Station} (h : st'.state = st.state) (ha : st'.address = st.address) :
    st'.wakingAddress = st.wakingAddress := by
  unfold Station.wakingAddress
  rw [h, ha]

theorem State.Effect.contexts {s u : State} (h : s.Effect u) (hs : s.ContextsMatch) : u.ContextsMatch := by
  cases h with
  | note i st _ _ _ _ _ hst => exact hs.setStation hst (Station.wakingAddress_congr rfl rfl)
  | restate i st q _ hst hq _ =>
    have hnew : ({ st with state := q } : Station).wakingAddress = none := Station.wakingAddress_eq_none hq.2.1
    exact hs.setStation hst (by rw [hnew, Station.wakingAddress_eq_none hq.1])
  | seconds n =>
    refine hs.congr rfl fun i => ?_
    rw [State.passSeconds_station]
    cases s.station i <;> simp [Station.passSeconds_wakingAddress]
  | enrol c i _ _ _ hvacant => exact hs.congr rfl fun j => State.enrol_bind _ hvacant rfl j
  | template i st t hst _ _ => exact hs.setStation hst (Station.wakingAddress_congr rfl rfl)
  | addIdentifier i st id flag hst _ _ _ => exact hs.setStationOf hst rfl (Station.wakingAddress_congr rfl rfl) rfl
  | removeIdentifier i st id hst _ => exact hs.setStationOf hst rfl (Station.wakingAddress_congr rfl rfl) rfl
  | attachRule i st n hst _ => exact hs.setStationOf hst rfl (Station.wakingAddress_congr rfl rfl) rfl
  | detachRule i st n hst => exact hs.setStationOf hst rfl (Station.wakingAddress_congr rfl rfl) rfl
  | vacate i st _ hst hq _ =>
    exact hs.congr rfl fun j => State.vacate_bind _ hst (Station.wakingAddress_eq_none hq) j
  | wake i st l cause hst _ =>
    rw [State.wakeUp_eq]
    exact hs.replace rfl rfl rfl
  | hold i st cause b bytes hst hw _ =>
    exact State.ContextsMatch.setStation (s := { s with hold := tset s.hold b (.reserved bytes) })
      (hs.congr rfl fun _ => rfl) hst (by simp [Station.wakingAddress, hw])
  | retry i st x hst hx _ =>
    rw [State.attempt_eq hst]
    refine hs.replace rfl rfl ?_
    have hi := hs i
    rw [hx, hst] at hi
    exact hi.trans (Station.wakingAddress_congr rfl rfl)
  | units n =>
    intro i
    have hi := hs i
    simp only [State.passUnits_wake, tmap_get, State.station_of_stab (State.passUnits_stab s n)]
    rw [← hi]
    cases s.wake[i.val] <;> rfl
  | endWaking i st cause held q _ hst _ hq _ _ =>
    refine hs.replace (i := i) (st := { st with state := q }) (x := none) (by simp) ?_ (Station.wakingAddress_eq_none hq).symm
    simp [State.setStation, State.setRecord, State.generation]
  | releaseWaking i st cause b q _ hst _ _ hq _ _ =>
    exact hs.replace (i := i) (st := { st with state := q }) (x := none) rfl rfl (Station.wakingAddress_eq_none hq).symm
  | dropContext i hnone =>
    intro j
    rw [State.station_of_stab (State.cancelWaking_stab s i), State.cancelWaking_wake, tset_get]
    split
    · next e => subst e; rw [hnone]; rfl
    · exact hs j
  | passFrame | passTrigger => exact hs.congr rfl fun _ => rfl
  | entryEnds x e _ => exact hs.congr (by simp) fun i => by rw [State.station_of_stab]; simp
  | hardReset => exact .of_reset (State.hardReset_station s) rfl
  | softReset => exact .of_reset (State.softReset_station s) rfl
  | _ => exact hs.congr rfl fun _ => rfl

/-- Settles O54: a waking begins with its context and ends with it, and no other event touches a context or makes a
record WAKING. -/
theorem wakingContextsKept : Obligations.WakingContextsKept := by
  unfold Obligations.WakingContextsKept
  intro c s t hs ht
  exact exec_keeps (fun _ _ he => he.contexts) (fun _ hv => hv.congr rfl fun _ => rfl) hs ht

end Sys2Proof.Machine
end

section
/-! PROOF. The intake slots: every occupied slot stands in exactly one list, or takes the one transfer in progress (R76, R77). -/

namespace Sys2Proof.Machine

/-! ### One slot enters or leaves a list of slots -/

/-- The list after stands as the list before at every slot but one, and at that slot it stands as said. -/
structure SlotMoves (before after : List (Fin 4)) (j : Fin 4) (stands : Prop) : Prop where
  nodup : after.Nodup
  others : ∀ k, j ≠ k → (k ∈ after ↔ k ∈ before)
  self : j ∈ after ↔ stands

theorem SlotMoves.same {l : List (Fin 4)} {j : Fin 4} {stands : Prop} (hl : l.Nodup) (hj : j ∈ l ↔ stands) :
    SlotMoves l l j stands := ⟨hl, fun _ _ => Iff.rfl, hj⟩

theorem SlotMoves.leave {l l' : List (Fin 4)} {j : Fin 4} {stands : Prop} (hl : l.Nodup) (hp : l.Perm (j :: l'))
    (hs : ¬ stands) : SlotMoves l l' j stands := by
  have hnodup := List.nodup_cons.mp (hp.nodup_iff.mp hl)
  refine ⟨hnodup.2, fun k hk => ?_, iff_of_false hnodup.1 hs⟩
  rw [hp.mem_iff, List.mem_cons]
  simp [Ne.symm hk]

theorem SlotMoves.join {l : List (Fin 4)} {j : Fin 4} {stands : Prop} (hl : l.Nodup) (hj : j ∉ l) (hs : stands) :
    SlotMoves l (l ++ [j]) j stands := by
  refine ⟨List.concat_eq_append ▸ hl.concat hj, fun k hk => ?_, iff_of_true (by simp) hs⟩
  rw [List.mem_append, List.mem_singleton]
  simp [Ne.symm hk]

theorem SlotsMatch.congr {c c' : Icls} {p p' : List Presented} {e e' : Emit} (h : SlotsMatch c p e)
    (hslots : c'.slots = c.slots) (harrivals : c'.arrivals = c.arrivals)
    (hframes : p'.filterMap Presented.frame = p.filterMap Presented.frame) (hpasses : e'.passes = e.passes) :
    SlotsMatch c' p' e' := by
  unfold SlotsMatch at h ⊢
  simpa only [hslots, harrivals, hframes, hpasses] using h

/-- One slot is replaced, and the three lists move with its use. -/
theorem SlotsMatch.replace {c c' : Icls} {p p' : List Presented} {e e' : Emit} (h : SlotsMatch c p e) {j : Fin 4}
    {x : IntakeSlot} (hslots : c'.slots = tset c.slots j x)
    (harrivals : SlotMoves c.arrivals c'.arrivals j (x.use = some .classification))
    (hframes : SlotMoves (p.filterMap Presented.frame) (p'.filterMap Presented.frame) j (x.use = some .trigger))
    (hpasses : SlotMoves e.passes e'.passes j (x.use = some .pass))
    (htransfer : x.use = some .arrival → ∀ k : Fin 4, c.slots[k.val].use ≠ some .arrival) : SlotsMatch c' p' e' := by
  obtain ⟨-, hclassified, -, htriggered, -, hpassed, hone⟩ := h
  have huse : ∀ k : Fin 4, c'.slots[k.val].use = if j = k then x.use else c.slots[k.val].use := fun k => by
    rw [hslots, tset_get]
    split <;> rfl
  refine ⟨harrivals.nodup, fun k => ?_, hframes.nodup, fun k => ?_, hpasses.nodup, fun k => ?_, fun k l hk hl => ?_⟩
  · rw [huse]
    split
    · next hjk => subst hjk; exact harrivals.self.symm
    · next hjk => rw [hclassified, harrivals.others k hjk]
  · rw [huse]
    split
    · next hjk => subst hjk; exact hframes.self.symm
    · next hjk => rw [htriggered, hframes.others k hjk]
  · rw [huse]
    split
    · next hjk => subst hjk; exact hpasses.self.symm
    · next hjk => rw [hpassed, hpasses.others k hjk]
  · rw [huse] at hk hl
    split at hk
    · next hjk =>
      split at hl
      · next hjl => exact hjk.symm.trans hjl
      · exact absurd hl (htransfer hk l)
    · split at hl
      · exact absurd hk (htransfer hl k)
      · exact hone k l hk hl

/-! ### The events of an intake slot -/

theorem IntakeSlot.use_arrival (x : IntakeSlot) : x.use = some .arrival ↔ x = .arriving := by
  cases x <;> simp [IntakeSlot.use]

theorem Icls.no_transfer {c : Icls} (h : c.arriving = none) (k : Fin 4) : c.slots[k.val].use ≠ some .arrival := by
  rw [ne_eq, IntakeSlot.use_arrival]
  simpa using lowest_none.mp h k

/-- What a slot is not used for, no list names it for. -/
theorem SlotsMatch.classified_iff {c : Icls} {p : List Presented} {e : Emit} (h : SlotsMatch c p e) (j : Fin 4) :
    j ∈ c.arrivals ↔ c.slots[j.val].use = some .classification := (h.2.1 j).symm

theorem SlotsMatch.triggered_iff {c : Icls} {p : List Presented} {e : Emit} (h : SlotsMatch c p e) (j : Fin 4) :
    j ∈ p.filterMap Presented.frame ↔ c.slots[j.val].use = some .trigger := (h.2.2.2.1 j).symm

theorem SlotsMatch.passed_iff {c : Icls} {p : List Presented} {e : Emit} (h : SlotsMatch c p e) (j : Fin 4) :
    j ∈ e.passes ↔ c.slots[j.val].use = some .pass := (h.2.2.2.2.2.1 j).symm

/-- The slot changes its use without a list: no list holds it, before and after. -/
theorem SlotsMatch.startArrival {c : Icls} {p : List Presented} {e : Emit} (h : SlotsMatch c p e) {j : Fin 4}
    (hfree : c.slots[j.val] = .free) (hnone : c.arriving = none) : SlotsMatch (c.setSlot j .arriving) p e := by
  have huse : c.slots[j.val].use = none := by rw [hfree]; rfl
  refine h.replace rfl (.same h.1 ?_) (.same h.2.2.1 ?_) (.same h.2.2.2.2.1 ?_) fun _ => Icls.no_transfer hnone
  · rw [h.classified_iff, huse]; simp [IntakeSlot.use]
  · rw [h.triggered_iff, huse]; simp [IntakeSlot.use]
  · rw [h.passed_iff, huse]; simp [IntakeSlot.use]

theorem SlotsMatch.finishArrival {c : Icls} {p : List Presented} {e : Emit} (h : SlotsMatch c p e) {j : Fin 4} {a : Arrived}
    (harriving : c.slots[j.val] = .arriving) :
    SlotsMatch { c.setSlot j (.received a) with arrivals := c.arrivals ++ [j] } p e := by
  have huse : c.slots[j.val].use = some .arrival := by rw [harriving]; rfl
  refine h.replace rfl (.join h.1 ?_ rfl) (.same h.2.2.1 ?_) (.same h.2.2.2.2.1 ?_) fun hx => ?_
  · simp [h.classified_iff, huse]
  · rw [h.triggered_iff, huse]; simp [IntakeSlot.use]
  · rw [h.passed_iff, huse]; simp [IntakeSlot.use]
  · cases hx

/-- The oldest frame waits for classification, so its slot is in no other use. -/
theorem SlotsMatch.head_use {c : Icls} {p : List Presented} {e : Emit} (h : SlotsMatch c p e) {j : Fin 4}
    {rest : List (Fin 4)} (hhead : c.arrivals = j :: rest) : c.slots[j.val].use = some .classification :=
  (h.classified_iff j).mp (by rw [hhead]; exact List.mem_cons_self)

theorem SlotsMatch.passTag {c : Icls} {p : List Presented} {e : Emit} (h : SlotsMatch c p e) {j : Fin 4}
    {rest : List (Fin 4)} {f : Frame} (hhead : c.arrivals = j :: rest) : SlotsMatch (c.setSlot j (.unclassified f)) p e := by
  have huse := h.head_use hhead
  refine h.replace rfl (.same h.1 ?_) (.same h.2.2.1 ?_) (.same h.2.2.2.2.1 ?_) fun hx => ?_
  · rw [h.classified_iff, huse]; simp [IntakeSlot.use]
  · rw [h.triggered_iff, huse]; simp [IntakeSlot.use]
  · rw [h.passed_iff, huse]; simp [IntakeSlot.use]
  · cases hx

/-- The classification of the oldest frame ends with its slot freed, kept for a trigger or kept for a pass. -/
theorem SlotsMatch.endFrame {s : State} {p' : List Presented} {e' : Emit} (h : SlotsMatch s.icls s.presented s.emit)
    {j : Fin 4} {rest : List (Fin 4)} {x : IntakeSlot} (hhead : s.icls.arrivals = j :: rest)
    (hframes : SlotMoves (s.presented.filterMap Presented.frame) (p'.filterMap Presented.frame) j (x.use = some .trigger))
    (hpasses : SlotMoves s.emit.passes e'.passes j (x.use = some .pass))
    (hclass : x.use ≠ some .classification) (hx : x.use ≠ some .arrival) : SlotsMatch (s.endFrame j x).icls p' e' :=
  h.replace rfl (.leave h.1 (by simp [hhead]) hclass) hframes hpasses fun hx' => absurd hx' hx

/-- A presented trigger is taken: its slot is freed or kept for a pass. -/
theorem SlotsMatch.takeTrigger {c : Icls} {p : List Presented} {e : Emit} (h : SlotsMatch c p e) {p' : List Presented}
    {e' : Emit} {j : Fin 4} {x : IntakeSlot}
    (hframes : (p.filterMap Presented.frame).Perm (j :: p'.filterMap Presented.frame))
    (hpasses : SlotMoves e.passes e'.passes j (x.use = some .pass)) (htrigger : x.use ≠ some .trigger)
    (hclass : x.use ≠ some .classification) (hx : x.use ≠ some .arrival) :
    SlotsMatch { c with slots := tset c.slots j x } p' e' := by
  have huse : c.slots[j.val].use = some .trigger := (h.triggered_iff j).mp (hframes.mem_iff.mpr List.mem_cons_self)
  refine h.replace rfl (.same h.1 ?_) (.leave h.2.2.1 hframes htrigger) hpasses fun hx' => absurd hx' hx
  simp [h.classified_iff, huse, hclass]

/-! ### The presented events -/

theorem State.nextPresented_perm {s : State} {i : Slot} {e : Presented} (h : s.nextPresented i = some e) :
    s.presented.Perm (e :: (s.popPresented i).presented) := by
  obtain ⟨hslot, before, after, hsplit, hbefore⟩ := List.find?_eq_some_iff_append.mp h
  have hpop : (s.popPresented i).presented = before ++ after := by
    rw [State.popPresented_presented, hsplit, List.eraseP_append_right]
    · simp [hslot]
    · intro q hq
      simpa using hbefore q hq
  rw [hpop, hsplit]
  exact List.perm_middle

theorem State.nextPresented_frames {s : State} {i : Slot} {e : Presented} (h : s.nextPresented i = some e) :
    (s.presented.filterMap Presented.frame).Perm (e.frame.toList ++ (s.popPresented i).presented.filterMap Presented.frame) := by
  refine ((State.nextPresented_perm h).filterMap Presented.frame).trans ?_
  cases hf : e.frame <;> simp [hf]

/-- With the first event of a slot taken that carries no frame, the frames carried are the same. -/
theorem State.popPresented_frames {s : State} {i : Slot} {e : Presented} (h : s.nextPresented i = some e)
    (hf : e.frame = none) :
    (s.popPresented i).presented.filterMap Presented.frame = s.presented.filterMap Presented.frame := by
  obtain ⟨hslot, before, after, hsplit, hbefore⟩ := List.find?_eq_some_iff_append.mp h
  have hpop : (s.popPresented i).presented = before ++ after := by
    rw [State.popPresented_presented, hsplit, List.eraseP_append_right]
    · simp [hslot]
    · intro q hq
      simpa using hbefore q hq
  rw [hpop, hsplit]
  simp [hf]

/-! ### The entries -/

theorem Emit.passes_joined {e : Emit} {x : Entry} (hx : x.passSlot = none) : (e.joined x).passes = e.passes := by
  unfold Emit.joined
  split
  · rw [Emit.passes_append, hx]; simp
  · rfl

/-- A PASS entry leaves and its slot is freed; any other entry leaves the slots as they are. -/
theorem SlotsMatch.entryEnds {s : State} (h : SlotsMatch s.icls s.presented s.emit) {x : Entry} {e : Emit}
    (hperm : s.emit.entries.Perm (x :: e.entries)) :
    SlotsMatch (({ s with emit := e } : State).freeResource x.kind).icls s.presented e := by
  have hpasses : s.emit.passes.Perm (x.passSlot.toList ++ e.passes) := by
    refine (hperm.filterMap Entry.passSlot).trans ?_
    cases hx : x.passSlot <;> simp [hx, Emit.passes]
  cases hk : x.kind with
  | pass j =>
    simp only [Entry.passSlot, hk, Option.toList_some, List.singleton_append] at hpasses
    have huse : s.icls.slots[j.val].use = some .pass := (h.passed_iff j).mp (hpasses.mem_iff.mpr List.mem_cons_self)
    refine h.replace (j := j) (x := .free) rfl (.same h.1 ?_) (.same h.2.2.1 ?_)
      (.leave h.2.2.2.2.1 hpasses (by simp [IntakeSlot.use])) fun hx => nomatch hx
    · rw [h.classified_iff, huse]; simp [IntakeSlot.use]
    · rw [h.triggered_iff, huse]; simp [IntakeSlot.use]
  | _ =>
    simp only [Entry.passSlot, hk, Option.toList_none, List.nil_append] at hpasses
    obtain ⟨ha, hclassified, hp, htriggered, hn, hpassed, hone⟩ := h
    exact ⟨ha, hclassified, hp, htriggered, hpasses.nodup_iff.mp hn, fun j => (hpassed j).trans hpasses.mem_iff, hone⟩

/-- An entry that leaves unsent is no PASS entry: its slot would hold a frame. -/
theorem SlotsMatch.unsent {s : State} (h : SlotsMatch s.icls s.presented s.emit) {x : Entry} {e : Emit}
    (he : s.emit.entries = x :: e.entries) (hx : s.entryBytes x.kind = none) : SlotsMatch s.icls s.presented e := by
  have hnone : x.passSlot = none := by
    cases hk : x.kind with
    | pass j =>
      have huse := (h.passed_iff j).mp (by simp [Emit.passes, he, Entry.passSlot, hk])
      simp only [State.entryBytes, hk] at hx
      cases hs : s.icls.slots[j.val] <;> simp [hs, IntakeSlot.use, IntakeSlot.frame] at huse hx
    | _ => simp [Entry.passSlot, hk]
  exact h.congr rfl rfl rfl (by simp [Emit.passes, he, hnone])

theorem SlotsMatch.reset : SlotsMatch Icls.reset [] Emit.reset := by
  refine ⟨List.nodup_nil, fun j => ?_, List.nodup_nil, fun j => ?_, List.nodup_nil, fun j => ?_, fun j k hj => ?_⟩
  · simp [Icls.reset, IntakeSlot.use]
  · simp [Icls.reset, IntakeSlot.use]
  · simp [Icls.reset, IntakeSlot.use, Emit.passes, Emit.entries, Emit.reset]
  · simp [Icls.reset, IntakeSlot.use] at hj

theorem State.Effect.slots {s u : State} (h : s.Effect u) (hs : SlotsMatch s.icls s.presented s.emit) :
    SlotsMatch u.icls u.presented u.emit := by
  cases h with
  | withdraw i a => exact hs.congr rfl rfl rfl (by simp)
  | claim b frame p g _ _ => exact hs.congr rfl rfl rfl (by rw [Emit.passes_append]; simp [Entry.passSlot])
  | send x rest w hsending hwaiting =>
    exact hs.congr rfl rfl rfl (by simp only [Emit.passes, Emit.entries_send w hsending hwaiting])
  | unsent x rest hsending hwaiting hx => exact hs.unsent (Emit.entries_unsent hsending hwaiting) hx
  | entryEnds x e hperm => simpa using hs.entryEnds hperm
  | wake i st l cause hst hasleep =>
    exact hs.congr (by simp) (by simp) (by simp) (by rw [State.wakeUp_emit]; exact Emit.passes_joined rfl)
  | retry i st x hst _ _ =>
    rw [State.attempt_eq hst]
    exact hs.congr rfl rfl rfl (Emit.passes_joined rfl)
  | endWaking i st cause held q _ _ _ _ _ _ => simpa using hs
  | releaseWaking i st cause b q _ _ _ _ _ _ _ =>
    exact hs.congr rfl rfl rfl (by rw [Emit.passes_append]; simp [Entry.passSlot])
  | startArrival j hfree hnone => exact hs.startArrival hfree hnone
  | finishArrival j a harriving => exact hs.finishArrival harriving
  | passTag j rest f hhead => exact hs.passTag hhead
  | goOn c => exact hs.congr rfl rfl rfl rfl
  | discard j rest hhead =>
    refine hs.endFrame hhead (.same hs.2.2.1 ?_) (.same hs.2.2.2.2.1 ?_) (by simp [IntakeSlot.use]) (by simp [IntakeSlot.use])
    · rw [hs.triggered_iff, hs.head_use hhead]; simp [IntakeSlot.use]
    · rw [hs.passed_iff, hs.head_use hhead]; simp [IntakeSlot.use]
  | present p hp => exact hs.congr rfl rfl (by simp [hp]) rfl
  | presentTrigger j rest f p hhead hp =>
    refine hs.endFrame hhead ?_ (.same hs.2.2.2.2.1 ?_) (by simp [IntakeSlot.use]) (by simp [IntakeSlot.use])
    · simp only [State.endFrame_presented, List.filterMap_append, List.filterMap_cons, hp, List.filterMap_nil]
      refine .join hs.2.2.1 ?_ rfl
      rw [hs.triggered_iff, hs.head_use hhead]; simp
    · rw [hs.passed_iff, hs.head_use hhead]; simp [IntakeSlot.use]
  | passFrame j rest f p g hhead _ =>
    refine hs.endFrame hhead (.same hs.2.2.1 ?_) ?_ (by simp [IntakeSlot.use]) (by simp [IntakeSlot.use])
    · rw [hs.triggered_iff, hs.head_use hhead]; simp [IntakeSlot.use]
    · simp only [State.endFrame_emit, Emit.passes_append, Entry.passSlot, Option.toList_some]
      refine .join hs.2.2.2.2.1 ?_ rfl
      rw [hs.passed_iff, hs.head_use hhead]; simp
  | takePresented i e hnext hnone => exact hs.congr rfl rfl (State.popPresented_frames hnext hnone) rfl
  | dropTrigger i e j hnext hframe =>
    have hframes := State.nextPresented_frames hnext
    simp only [hframe, Option.toList_some, List.singleton_append] at hframes
    have huse := (hs.triggered_iff j).mp (hframes.mem_iff.mpr List.mem_cons_self)
    refine hs.takeTrigger hframes (.same hs.2.2.2.2.1 ?_) (by simp [IntakeSlot.use]) (by simp [IntakeSlot.use])
      (by simp [IntakeSlot.use])
    rw [hs.passed_iff, huse]; simp [IntakeSlot.use]
  | passTrigger i e j f p g hnext hframe _ =>
    have hframes := State.nextPresented_frames hnext
    simp only [hframe, Option.toList_some, List.singleton_append] at hframes
    have huse := (hs.triggered_iff j).mp (hframes.mem_iff.mpr List.mem_cons_self)
    refine hs.takeTrigger hframes ?_ (by simp [IntakeSlot.use]) (by simp [IntakeSlot.use]) (by simp [IntakeSlot.use])
    simp only [Emit.passes_append, Entry.passSlot, Option.toList_some]
    refine .join hs.2.2.2.2.1 ?_ rfl
    rw [hs.passed_iff, huse]; simp
  | hardReset => exact .reset
  | softReset => exact .reset
  | _ => simpa using hs

/-- Settles O53: a slot moves from the transfer to arrival order, and from there to a trigger, a pass or freedom, and
every list moves with it. -/
theorem intakeSlotsKept : Obligations.IntakeSlotsKept := by
  unfold Obligations.IntakeSlotsKept
  intro c s t hs ht
  exact exec_keeps (P := fun v => SlotsMatch v.icls v.presented v.emit) (fun _ _ he => he.slots) (fun _ hv => hv) hs ht

end Sys2Proof.Machine
end

section
/-! PROOF. The identifier map: its entries are those of the records' lists, and both change together (R47, R48, R51 to R57). -/

namespace Sys2Proof.Machine

/-! ### The entries a record calls for -/

/-- The map entry that a list entry of the record in a slot calls for (R48). -/
def ListedIdentifier.entry (l : ListedIdentifier) (i : Slot) (g : Segment) : MapEntry :=
  { identifier := l.identifier, segment := g, slot := i, wakeOnQuery := l.wakeOnQuery }

/-- The map entries that the record of a slot calls for, in the order of its list. -/
def State.listing (s : State) (i : Slot) : List MapEntry :=
  ((s.station i).map fun st => st.identifiers.map fun l => l.entry i st.segment).getD []

theorem State.listing_of_station {s : State} {i : Slot} {st : Station} (h : s.station i = some st) :
    s.listing i = st.identifiers.map fun l => l.entry i st.segment := by
  simp [State.listing, h]

theorem State.listing_of_vacant {s : State} {i : Slot} (h : s.station i = none) : s.listing i = [] := by
  simp [State.listing, h]

theorem State.lists_iff (s : State) (e : MapEntry) : s.Lists e ↔ e ∈ s.listing e.slot := by
  cases h : s.station e.slot with
  | none => simp [State.Lists, State.listing_of_vacant h, h]
  | some st =>
    simp only [State.Lists, h, State.listing_of_station h, List.mem_map, Option.some.injEq, exists_eq_left']
    constructor
    · rintro ⟨hsegment, hmem⟩
      exact ⟨_, hmem, by rw [hsegment]; rfl⟩
    · rintro ⟨l, hl, he⟩
      rw [← he]
      exact ⟨rfl, hl⟩

/-- R5, R47, R48 over the entries that the records call for. -/
structure ListingsMap (idmap : List MapEntry) (listing : Slot → List MapEntry) : Prop where
  length : idmap.length ≤ Config.mapCapacity
  keys : (idmap.map MapEntry.key).Nodup
  mem_iff : ∀ e, e ∈ idmap ↔ e ∈ listing e.slot
  nodup : ∀ i, ((listing i).map (·.identifier)).Nodup

theorem State.mapMatches_iff (s : State) : s.MapMatches ↔ ListingsMap s.idmap s.listing := by
  have hnodup : (∀ i st, s.station i = some st → (st.identifiers.map (·.identifier)).Nodup) ↔
      ∀ i, ((s.listing i).map (·.identifier)).Nodup := by
    refine forall_congr' fun i => ?_
    cases h : s.station i with
    | none => simp [State.listing_of_vacant h]
    | some st => simp [State.listing_of_station h, ListedIdentifier.entry, Function.comp_def]
  unfold State.MapMatches
  simp only [hnodup, State.lists_iff]
  exact ⟨fun ⟨hl, hk, hm, hn⟩ => ⟨hl, hk, hm, hn⟩, fun ⟨hl, hk, hm, hn⟩ => ⟨hl, hk, hm, hn⟩⟩

theorem State.MapMatches.congr {s u : State} (h : s.MapMatches) (hm : u.idmap = s.idmap)
    (hl : ∀ i, u.listing i = s.listing i) : u.MapMatches := by
  rw [State.mapMatches_iff] at h ⊢
  rw [hm, show u.listing = s.listing from funext hl]
  exact h

theorem State.listing_setStation {s u : State} {i : Slot} {st : Station} (hstab : u.stab = (s.setStation i st).stab)
    (j : Slot) : u.listing j = if i = j then st.identifiers.map fun l => l.entry i st.segment else s.listing j := by
  unfold State.listing
  rw [State.station_of_stab hstab, State.setStation_station]
  split
  · next e => subst e; rfl
  · rfl

/-- One station is set that keeps its segment and its list. -/
theorem State.MapMatches.setStation {s u : State} (h : s.MapMatches) {i : Slot} {st st' : Station}
    (hst : s.station i = some st) (hstab : u.stab = (s.setStation i st').stab) (hids : st'.identifiers = st.identifiers)
    (hsegment : st'.segment = st.segment) (hm : u.idmap = s.idmap) : u.MapMatches := by
  refine h.congr hm fun j => ?_
  rw [State.listing_setStation hstab]
  split
  · next e => subst e; rw [hids, hsegment, State.listing_of_station hst]
  · rfl

/-! ### An entry joins, entries leave -/

/-- An entry of the map stands in the list of its slot. -/
theorem ListingsMap.slot_eq {m : List MapEntry} {listing : Slot → List MapEntry} (h : ListingsMap m listing) {e e' : MapEntry}
    (he : e ∈ m) (he' : e' ∈ m) (hkey : e.key = e'.key) : e = e' :=
  List.inj_on_of_nodup_map h.keys he he' hkey

theorem ListingsMap.add {m : List MapEntry} {listing listing' : Slot → List MapEntry} (h : ListingsMap m listing)
    {e : MapEntry} (hkey : e.key ∉ m.map MapEntry.key) (hroom : m.length < Config.mapCapacity)
    (hlisting : ∀ j, listing' j = if e.slot = j then listing j ++ [e] else listing j)
    (hids : ∀ x ∈ listing e.slot, x.slot = e.slot ∧ x.segment = e.segment) : ListingsMap (m ++ [e]) listing' where
  length := by rw [List.length_append, List.length_singleton]; exact hroom
  keys := by
    rw [List.map_append, List.map_singleton, ← List.concat_eq_append]
    exact h.keys.concat hkey
  mem_iff x := by
    rw [List.mem_append, List.mem_singleton, hlisting, h.mem_iff]
    split
    · simp
    · next hne => simp only [or_iff_left_iff_imp]; rintro rfl; exact absurd rfl hne
  nodup j := by
    rw [hlisting]
    split
    · next hj =>
      subst hj
      rw [List.map_append, List.map_singleton, ← List.concat_eq_append]
      refine (h.nodup e.slot).concat fun hmem => ?_
      obtain ⟨x, hx, hid⟩ := List.mem_map.mp hmem
      obtain ⟨hslot, hsegment⟩ := hids x hx
      have hxm : x ∈ m := (h.mem_iff x).mpr (hslot ▸ hx)
      exact hkey (List.mem_map.mpr ⟨x, hxm, by simp [MapEntry.key, hid, hsegment]⟩)
    · exact h.nodup j

/-- The map drops the entries that fail a test, and so does the list of every slot. -/
theorem ListingsMap.filter {m : List MapEntry} {listing listing' : Slot → List MapEntry} (h : ListingsMap m listing)
    {keep : MapEntry → Bool} (hlisting : ∀ j, listing' j = (listing j).filter keep) :
    ListingsMap (m.filter keep) listing' where
  length := (List.length_filter_le keep m).trans h.length
  keys := (List.filter_sublist.map MapEntry.key).nodup h.keys
  mem_iff x := by rw [hlisting, List.mem_filter, List.mem_filter, h.mem_iff]
  nodup j := by
    rw [hlisting]
    exact (List.filter_sublist.map MapEntry.identifier).nodup (h.nodup j)

/-- A key that one record lists is the key of no entry of another record. -/
theorem ListingsMap.listing_ne {m : List MapEntry} {listing : Slot → List MapEntry} (h : ListingsMap m listing)
    (hslot : ∀ j, ∀ x ∈ listing j, x.slot = j) {i j : Slot} (hij : i ≠ j) {e x : MapEntry} (he : e ∈ listing i)
    (hx : x ∈ listing j) : e.key ≠ x.key := fun hkey => by
  have hem : e ∈ m := (h.mem_iff e).mpr ((hslot i e he).symm ▸ he)
  have hxm : x ∈ m := (h.mem_iff x).mpr ((hslot j x hx).symm ▸ hx)
  have heq := h.slot_eq hem hxm hkey
  exact hij ((hslot i e he).symm.trans (heq ▸ hslot j x hx))

theorem State.listing_slot {s : State} (j : Slot) (x : MapEntry) (hx : x ∈ s.listing j) : x.slot = j := by
  cases h : s.station j with
  | none => simp [State.listing_of_vacant h] at hx
  | some st =>
    rw [State.listing_of_station h] at hx
    obtain ⟨l, -, rfl⟩ := List.mem_map.mp hx
    rfl

theorem mapHolds_eq_false {m : List MapEntry} {id : Identifier} {g : Segment} (h : mapHolds m id g = false) :
    (id, g) ∉ m.map MapEntry.key := by
  intro hmem
  obtain ⟨e, he, hkey⟩ := List.mem_map.mp hmem
  simp only [MapEntry.key, Prod.mk.injEq] at hkey
  have hall := List.any_eq_false.mp h e he
  simp [hkey.1, hkey.2] at hall

/-- R51, R52: the identifier joins the list and the map. -/
theorem State.MapMatches.addIdentifier {s : State} (h : s.MapMatches) {i : Slot} {st : Station} {id : Identifier}
    {flag : Bool} (hst : s.station i = some st) (hnew : mapHolds s.idmap id st.segment = false)
    (hroom : s.idmap.length < Config.mapCapacity) : (s.addIdentifier i st id flag).MapMatches := by
  rw [State.mapMatches_iff] at h ⊢
  refine h.add (e := { identifier := id, segment := st.segment, slot := i, wakeOnQuery := flag })
    (mapHolds_eq_false hnew) hroom (fun j => ?_) fun x hx => ?_
  · rw [State.listing_setStation (u := s.addIdentifier i st id flag) (s := s) (i := i) rfl]
    split
    · next e => subst e; rw [State.listing_of_station hst, List.map_append]; rfl
    · rfl
  · rw [State.listing_of_station hst] at hx
    obtain ⟨l, -, rfl⟩ := List.mem_map.mp hx
    exact ⟨rfl, rfl⟩

/-- R53: the identifier leaves the list and the map. -/
theorem State.MapMatches.removeIdentifier {s : State} (h : s.MapMatches) {i : Slot} {st : Station} {id : Identifier}
    (hst : s.station i = some st) (hlisted : id ∈ st.identifiers.map (·.identifier)) :
    (s.removeIdentifier i st id).MapMatches := by
  rw [State.mapMatches_iff] at h ⊢
  refine h.filter fun j => ?_
  rw [State.listing_setStation (u := s.removeIdentifier i st id) (s := s) (i := i) rfl]
  split
  · next hij =>
    subst hij
    rw [State.listing_of_station hst, List.filter_map]
    refine congrArg _ (List.filter_congr fun l _ => ?_)
    simp [ListedIdentifier.entry]
  · next hij =>
    refine (List.filter_eq_self.mpr fun x hx => ?_).symm
    obtain ⟨l, hl, rfl⟩ := List.mem_map.mp hlisted
    have hentry : l.entry i st.segment ∈ s.listing i := by
      rw [State.listing_of_station hst]; exact List.mem_map_of_mem hl
    have hkey := h.listing_ne State.listing_slot hij hentry hx
    simp only [MapEntry.key, ListedIdentifier.entry, ne_eq, Prod.mk.injEq, not_and] at hkey
    simp only [Bool.not_eq_true', Bool.and_eq_false_imp, decide_eq_true_eq, decide_eq_false_iff_not]
    exact fun hid hsegment => hkey hid.symm hsegment.symm

/-- R23, R57: at a vacancy the entries of the whole list leave the map. -/
theorem State.MapMatches.vacate {s : State} (h : s.MapMatches) {i : Slot} {st : Station} (hst : s.station i = some st) :
    (s.vacate i st).MapMatches := by
  rw [State.mapMatches_iff] at h ⊢
  refine h.filter fun j => ?_
  by_cases hij : i = j
  · subst hij
    have hnone : (s.vacate i st).station i = none := by rw [State.vacate_station, if_pos rfl]
    rw [State.listing_of_vacant hnone, State.listing_of_station hst, eq_comm, List.filter_eq_nil_iff]
    intro x hx
    obtain ⟨l, hl, rfl⟩ := List.mem_map.mp hx
    simp only [ListedIdentifier.entry, decide_true, Bool.true_and, Bool.not_eq_true', Bool.not_eq_false, List.any_eq_true]
    exact ⟨l, hl, by simp⟩
  · have hsame : (s.vacate i st).listing j = s.listing j := by
      unfold State.listing
      rw [State.vacate_station, if_neg hij]
    rw [hsame]
    refine (List.filter_eq_self.mpr fun x hx => ?_).symm
    simp only [Bool.not_eq_true', Bool.and_eq_false_imp, decide_eq_true_eq, List.any_eq_false]
    intro hsegment l hl hid
    have hentry : l.entry i st.segment ∈ s.listing i := by
      rw [State.listing_of_station hst]; exact List.mem_map_of_mem hl
    refine h.listing_ne State.listing_slot hij hentry hx ?_
    simp [MapEntry.key, ListedIdentifier.entry, hid, hsegment]

theorem State.MapMatches.of_reset {s : State} (hs : ∀ i, s.station i = none) (hm : s.idmap = []) : s.MapMatches := by
  rw [State.mapMatches_iff]
  have hl : s.listing = fun _ => [] := funext fun i => State.listing_of_vacant (hs i)
  rw [hm, hl]
  exact ⟨Nat.zero_le _, List.nodup_nil, fun _ => by simp, fun _ => List.nodup_nil⟩

theorem State.Effect.map {s u : State} (h : s.Effect u) (hs : s.MapMatches) : u.MapMatches := by
  cases h with
  | note i st _ _ _ _ _ hst => exact hs.setStation hst rfl rfl rfl rfl
  | restate i st q _ hst _ _ => exact hs.setStation hst rfl rfl rfl rfl
  | seconds n =>
    refine hs.congr rfl fun i => ?_
    unfold State.listing
    rw [State.passSeconds_station]
    cases s.station i <;> rfl
  | enrol c i _ _ _ hvacant =>
    refine hs.congr rfl fun j => ?_
    rw [State.listing_setStation (s := s) (i := i) rfl]
    split
    · next e => subst e; rw [State.listing_of_vacant hvacant]; rfl
    · rfl
  | template i st t hst _ _ => exact hs.setStation hst rfl rfl rfl rfl
  | addIdentifier i st id flag hst hnew _ hroom => exact hs.addIdentifier hst hnew hroom
  | removeIdentifier i st id hst hlisted => exact hs.removeIdentifier hst hlisted
  | attachRule i st n hst _ => exact hs.setStation hst rfl rfl rfl rfl
  | detachRule i st n hst => exact hs.setStation hst rfl rfl rfl rfl
  | vacate i st _ hst _ _ => exact hs.vacate hst
  | wake i st l cause hst _ =>
    rw [State.wakeUp_eq]
    exact hs.setStation hst rfl rfl rfl rfl
  | hold i st cause b bytes hst _ _ => exact hs.setStation hst rfl rfl rfl rfl
  | retry i st x hst _ _ =>
    rw [State.attempt_eq hst]
    exact hs.setStation hst rfl rfl rfl rfl
  | endWaking i st cause held q _ hst _ _ _ _ =>
    refine hs.setStation (st' := { st with state := q }) hst ?_ rfl rfl (by simp)
    simp [State.setStation, State.setRecord, State.generation]
  | releaseWaking i st cause b q _ hst _ _ _ _ _ => exact hs.setStation (st' := { st with state := q }) hst rfl rfl rfl rfl
  | entryEnds x e _ =>
    refine hs.congr (by simp) fun i => ?_
    unfold State.listing
    rw [State.station_of_stab (s := s) (by simp)]
  | passFrame | passTrigger => exact hs.congr rfl fun _ => rfl
  | hardReset => exact .of_reset (State.hardReset_station s) rfl
  | softReset => exact .of_reset (State.softReset_station s) rfl
  | _ => exact hs.congr rfl fun _ => rfl

/-- Settles O55: an identifier enters and leaves a list together with its map entry, and no other event touches
either. -/
theorem identifierMapKept : Obligations.IdentifierMapKept := by
  unfold Obligations.IdentifierMapKept
  intro c s t hs ht
  exact exec_keeps (fun _ _ he => he.map) (fun _ hv => hv.congr rfl fun _ => rfl) hs ht

end Sys2Proof.Machine
end

section
/-! PROOF. The areas, the addresses, and what records, configuration and rules hold (R4 to R8, R60, R113, R166, R200, Table 12-3). -/

namespace Sys2Proof.Machine

/-! ### The areas (R166, R200) -/

theorem Memory.Fits.writeBytes {m : Memory} (h : m.Fits) (a : Nat) (l : List Byte) : (Memory.writeBytes m a l).Fits :=
  ⟨Memory.writeBytes_wf h.1 a l, Memory.writeBytes_within h.2 a l⟩

theorem Memory.Fits.nil : Memory.Fits [] := ⟨rfl, fun _ h => nomatch h⟩

theorem State.Effect.areas {s u : State} (h : s.Effect u) (hs : s.AreasFit) : u.AreasFit := by
  obtain ⟨hcommand, hresult, hengine⟩ := hs
  cases h with
  | latch => exact ⟨hcommand, hresult, hcommand⟩
  | progress c p q hbusy _ => exact ⟨hcommand, hresult, by rw [hbusy] at hengine; exact hengine⟩
  | complete c r => exact ⟨hcommand, Memory.Fits.nil.writeBytes _ _, trivial⟩
  | storeCommand a data => exact ⟨hcommand.writeBytes a data, hresult, hengine⟩
  | hardReset => exact ⟨.nil, .nil, trivial⟩
  | softReset => exact ⟨.nil, .nil, trivial⟩
  | _ => exact ⟨by simpa using hcommand, by simpa using hresult, by simpa using hengine⟩

/-- Settles O60: an area is written in place, latched, or made from the bytes of a record. -/
theorem areasKept : Obligations.AreasKept := by
  unfold Obligations.AreasKept
  intro c s t hs ht
  exact exec_keeps (fun _ _ he => he.areas) (fun _ hv => hv) hs ht

/-! ### What the checks of a command have found (R169) -/

theorem State.ChecksPassed.congr {s u : State} (h : s.ChecksPassed) (he : u.cmde.engine = s.cmde.engine) :
    u.ChecksPassed := by
  intro c hc
  exact h c (he ▸ hc)

theorem State.ChecksPassed.of_idle {s : State} (h : s.cmde.engine = .idle) : s.ChecksPassed := by
  intro c hc
  rw [h] at hc
  cases hc

/-- Settling the three checks marks a command as checked; every other change of the engine leaves it so, or ends it. -/
theorem State.Effect.checks {s u : State} (h : s.Effect u) (hs : s.ChecksPassed) : u.ChecksPassed := by
  cases h with
  | latch => exact fun c hc => by cases hc
  | progress c p q hbusy hpass =>
    intro d hd
    cases hd
    rcases hpass rfl with hq | hchecks
    · exact hs c (hq ▸ hbusy)
    · exact hchecks
  | complete c r => exact .of_idle rfl
  | hardReset => exact .of_idle rfl
  | softReset => exact .of_idle rfl
  | _ => exact hs.congr (by simp)

/-! ### The station addresses (R4) -/

theorem State.AddressesUnique.congr {s u : State} (h : s.AddressesUnique)
    (hp : u.mport.settings.partAddress = s.mport.settings.partAddress)
    (ha : ∀ i, (u.station i).map (·.address) = (s.station i).map (·.address)) : u.AddressesUnique := by
  obtain ⟨hunique, hvalid⟩ := h
  have hold : ∀ i st, u.station i = some st → ∃ st', s.station i = some st' ∧ st'.address = st.address := fun i st hi => by
    have hmap := ha i
    rw [hi] at hmap
    exact Option.map_eq_some_iff.mp hmap.symm
  refine ⟨fun i j a b hi hj hab => ?_, fun i a hi => ?_⟩
  · obtain ⟨a', hi', ha'⟩ := hold i a hi
    obtain ⟨b', hj', hb'⟩ := hold j b hj
    exact hunique i j a' b' hi' hj' (by rw [ha', hb', hab])
  · obtain ⟨a', hi', ha'⟩ := hold i a hi
    rw [← ha', hp]
    exact hvalid i a' hi'

/-- One station is set that keeps its address. -/
theorem State.AddressesUnique.setStation {s u : State} (h : s.AddressesUnique) {i : Slot} {st st' : Station}
    (hst : s.station i = some st) (hstab : u.stab = (s.setStation i st').stab) (ha : st'.address = st.address)
    (hp : u.mport.settings = s.mport.settings) : u.AddressesUnique := by
  refine h.congr (by rw [hp]) fun j => ?_
  rw [State.station_of_stab hstab, State.setStation_station]
  split
  · next e => subst e; rw [hst, Option.map_some, Option.map_some, ha]
  · rfl

/-- R14, R174: a station is enrolled whose address no record has, and which its checks allow. -/
theorem State.AddressesUnique.enrol {s : State} (h : s.AddressesUnique) {i : Slot} {st : Station}
    (hvalid : isStationAddress st.address = true) (hpart : st.address ≠ s.mport.settings.partAddress)
    (hnew : s.findAddress st.address = none) : (s.setStation i st).AddressesUnique := by
  obtain ⟨hunique, hold⟩ := h
  refine ⟨fun j k a b hj hk hab => ?_, fun j a hj => ?_⟩
  · rw [State.setStation_station] at hj hk
    split at hj
    · next hij =>
      split at hk
      · next hik => exact hij.symm.trans hik
      · cases hj; exact absurd hab.symm (State.findAddress_none hnew k b hk)
    · split at hk
      · cases hk; exact absurd hab (State.findAddress_none hnew j a hj)
      · exact hunique j k a b hj hk hab
  · rw [State.setStation_station] at hj
    split at hj
    · cases hj; exact ⟨hvalid, hpart⟩
    · exact hold j a hj

theorem createChecks_address {s : State} {c : Memory} (h : createChecks s c = none) :
    isStationAddress (addressArgument c) = true := by
  simp only [createChecks, firstFailed_none, List.forall_mem_cons, decide_eq_false_iff_not] at h
  obtain ⟨hgroup, hzero, -⟩ := h
  simp [isStationAddress, hgroup, hzero]

theorem State.AddressesUnique.vacate {s : State} (h : s.AddressesUnique) (i : Slot) (st : Station) :
    (s.vacate i st).AddressesUnique := by
  have hold : ∀ j a, (s.vacate i st).station j = some a → s.station j = some a := fun j a hj => by
    rw [State.vacate_station] at hj
    split at hj
    · cases hj
    · exact hj
  exact ⟨fun j k a b hj hk => h.1 j k a b (hold j a hj) (hold k b hk), fun j a hj => h.2 j a (hold j a hj)⟩

theorem State.AddressesUnique.of_vacant {s : State} (h : ∀ i, s.station i = none) : s.AddressesUnique := by
  constructor
  · intro i j a b hi
    rw [h i] at hi
    cases hi
  · intro i a hi
    rw [h i] at hi
    cases hi

theorem State.Effect.addresses {s u : State} (h : s.Effect u) (hc : s.ChecksPassed) (hs : s.AddressesUnique) :
    u.AddressesUnique := by
  cases h with
  | configure c _ hpart =>
    refine ⟨hs.1, fun i a hi => ⟨(hs.2 i a hi).1, ?_⟩⟩
    rcases hpart with hsame | hnone
    · rw [hsame]; exact (hs.2 i a hi).2
    · exact State.findAddress_none hnone i a hi
  | note i st _ _ _ _ _ hst => exact hs.setStation hst rfl rfl rfl
  | restate i st q _ hst _ _ => exact hs.setStation hst rfl rfl rfl
  | seconds n =>
    refine hs.congr rfl fun i => ?_
    rw [State.passSeconds_station]
    cases s.station i <;> rfl
  | enrol c i hchecks hpart hnew _ => exact hs.enrol (st := newStation c) (createChecks_address (hchecks hc)) hpart hnew
  | template i st t hst _ _ => exact hs.setStation hst rfl rfl rfl
  | addIdentifier i st id flag hst _ _ _ => exact hs.setStation hst rfl rfl rfl
  | removeIdentifier i st id hst _ => exact hs.setStation hst rfl rfl rfl
  | attachRule i st n hst _ => exact hs.setStation hst rfl rfl rfl
  | detachRule i st n hst => exact hs.setStation hst rfl rfl rfl
  | vacate i st _ _ _ _ => exact hs.vacate i st
  | wake i st l cause hst _ =>
    rw [State.wakeUp_eq]
    exact hs.setStation hst rfl rfl rfl
  | hold i st cause b bytes hst _ _ => exact hs.setStation hst rfl rfl rfl
  | retry i st x hst _ _ =>
    rw [State.attempt_eq hst]
    exact hs.setStation hst rfl rfl rfl
  | endWaking i st cause held q _ hst _ _ _ _ =>
    refine hs.setStation (st' := { st with state := q }) hst ?_ rfl (by simp)
    simp [State.setStation, State.setRecord, State.generation]
  | releaseWaking i st cause b q _ hst _ _ _ _ _ => exact hs.setStation (st' := { st with state := q }) hst rfl rfl rfl
  | entryEnds x e _ => exact hs.congr (by simp) fun i => by rw [State.station_of_stab (s := s) (by simp)]
  | passFrame | passTrigger => exact hs.congr rfl fun _ => rfl
  | hardReset => exact .of_vacant (State.hardReset_station s)
  | softReset => exact .of_vacant (State.softReset_station s)
  | _ => exact hs.congr rfl fun _ => rfl

/-- Settles O57: an address is enrolled after the search for it failed and its checks passed, and PartAddress changes
only to an address no record has. -/
theorem addressesKept : Obligations.AddressesKept := by
  unfold Obligations.AddressesKept
  intro c s t hs hc ht
  exact exec_keeps (P := fun v => v.AddressesUnique ∧ v.ChecksPassed)
    (fun _ _ he ⟨hv, hchecks⟩ => ⟨he.addresses hchecks hv, he.checks hchecks⟩) (fun _ hv => hv) ⟨hs, hc⟩ ht

/-! ### What a record holds (R5 to R8, R113) -/

theorem Settings.reset_inRange : Settings.reset.InRange := by
  unfold Settings.InRange
  decide

theorem State.StationsWellFormed.congr {s u : State} (h : s.StationsWellFormed) (hp : u.mport.settings = s.mport.settings)
    (hst : ∀ i, u.station i = s.station i) : u.StationsWellFormed := by
  unfold State.StationsWellFormed at h ⊢
  simpa only [hp, hst] using h

/-- One station is set that is well formed. -/
theorem State.StationsWellFormed.setStation {s u : State} (h : s.StationsWellFormed) {i : Slot} {st : Station}
    (hstab : u.stab = (s.setStation i st).stab) (hp : u.mport.settings = s.mport.settings) (hw : st.WellFormed) :
    u.StationsWellFormed := by
  refine ⟨hp ▸ h.1, fun j a hj => ?_⟩
  rw [State.station_of_stab hstab, State.setStation_station] at hj
  split at hj
  · cases hj; exact hw
  · exact h.2 j a hj

/-- The record enters a state that its template and a lease of at least a second allow. -/
theorem Station.WellFormed.restate {st : Station} (h : st.WellFormed) {q : StationState}
    (htemplate : q.needsTemplate = true → st.state.needsTemplate = true ∨ st.template.isSome = true)
    (hlease : ∀ l, q.leaseRemaining = some l → 1 ≤ l.toNat) : ({ st with state := q } : Station).WellFormed := by
  obtain ⟨hids, hrules, hheld, hbytes, -, hattempts⟩ := h
  exact ⟨hids, hrules, fun hq => (htemplate hq).elim hheld id, hbytes, hlease, hattempts⟩

theorem LeaseRun.lower_remaining (l : LeaseRun) (n : Nat) : 1 ≤ (l.lower n).remaining.toNat := by
  unfold LeaseRun.lower
  split
  · next h => have := l.remaining.isLt; simp only [BitVec.toNat_sub, BitVec.toNat_ofNat]; omega
  · decide

/-- R24: a countdown leaves the lease remaining at 1 or more. -/
theorem Station.WellFormed.passSeconds {st : Station} (h : st.WellFormed) (n : Nat) :
    ({ st with state := st.state.passSeconds n } : Station).WellFormed := by
  cases hq : st.state with
  | asleep l =>
    cases l with
    | none => exact h.restate (fun _ => Or.inl (by rw [hq]; rfl)) fun l hl => by simp [StationState.passSeconds, StationState.leaseRemaining] at hl
    | some l =>
      refine h.restate (fun _ => Or.inl (by rw [hq]; rfl)) fun m hm => ?_
      cases hm
      exact l.lower_remaining n
  | _ => exact h.restate (fun hneeds => Or.inl (by rw [hq]; exact hneeds)) fun m hm => nomatch hm

theorem Station.WellFormed.enrolled (c : Memory) : (newStation c).WellFormed :=
  ⟨Nat.zero_le _, Nat.zero_le _, fun h => (nomatch h), fun _ h => (nomatch h), fun _ h => (nomatch h), Nat.zero_le _⟩

theorem Station.WellFormed.attempts {st : Station} (h : st.WellFormed) {n : Nat} (hn : n ≤ 15) :
    ({ st with wakeAttempts := n } : Station).WellFormed :=
  ⟨h.1, h.2.1, h.2.2.1, h.2.2.2.1, h.2.2.2.2.1, hn⟩

theorem Station.WellFormed.template {st : Station} (h : st.WellFormed) {t : Option (List Byte)}
    (hstate : st.state.templateMayChange = true) (ht : ∀ bytes, t = some bytes → 60 ≤ bytes.length ∧ bytes.length ≤ 128) :
    ({ st with template := t } : Station).WellFormed := by
  obtain ⟨hids, hrules, -, -, hlease, hattempts⟩ := h
  refine ⟨hids, hrules, fun hneeds => ?_, ht, hlease, hattempts⟩
  have hneeds' : st.state.needsTemplate = true := hneeds
  cases hq : st.state <;> simp [hq, StationState.needsTemplate, StationState.templateMayChange] at hneeds' hstate

/-- R37: a record that begins a waking was ASLEEP, so it has its template. -/
theorem Station.WellFormed.wake {st : Station} (h : st.WellFormed) {l : Option LeaseRun} (hq : st.state = .asleep l)
    (cause : WakeCause) {n : Nat} (hn : n ≤ 15) (b : Half) :
    ({ st with state := .waking cause none, wakeAttempts := n, wakesBegun := b } : Station).WellFormed := by
  obtain ⟨hids, hrules, hheld, hbytes, -, -⟩ := h
  exact ⟨hids, hrules, fun _ => hheld (by rw [hq]; rfl), hbytes, fun _ hl => (nomatch hl), hn⟩

theorem State.StationsWellFormed.of_vacant {s : State} (hp : s.mport.settings.InRange) (h : ∀ i, s.station i = none) :
    s.StationsWellFormed := ⟨hp, fun i st hi => by rw [h i] at hi; cases hi⟩

theorem State.Effect.stations {s u : State} (h : s.Effect u) (hc : s.ChecksPassed) (hs : s.StationsWellFormed) :
    u.StationsWellFormed := by
  have hwf := hs.2
  cases h with
  | configure c hrange _ => exact ⟨hrange hs.1, hwf⟩
  | note i st _ _ _ _ _ hst => exact hs.setStation rfl rfl (hwf i st hst)
  | restate i st q _ hst hq _ =>
    obtain ⟨-, -, htemplate, hlease⟩ := hq
    exact hs.setStation rfl rfl ((hwf i st hst).restate htemplate hlease)
  | seconds n =>
    refine ⟨hs.1, fun i st hi => ?_⟩
    rw [State.passSeconds_station] at hi
    obtain ⟨st', hst', rfl⟩ := Option.map_eq_some_iff.mp hi
    exact (hwf i st' hst').passSeconds n
  | enrol c i _ _ _ _ => exact hs.setStation rfl rfl (.enrolled c)
  | template i st t hst hmay ht => exact hs.setStation rfl rfl ((hwf i st hst).template hmay (ht hc))
  | addIdentifier i st id flag hst _ hroom _ =>
    refine hs.setStation rfl rfl ⟨?_, (hwf i st hst).2⟩
    rw [List.length_append, List.length_singleton]
    exact hroom
  | removeIdentifier i st id hst _ =>
    exact hs.setStation rfl rfl ⟨(List.length_filter_le _ _).trans (hwf i st hst).1, (hwf i st hst).2⟩
  | attachRule i st n hst hroom =>
    refine hs.setStation rfl rfl ⟨(hwf i st hst).1, ?_, (hwf i st hst).2.2⟩
    rw [List.length_append, List.length_singleton]
    exact hroom
  | detachRule i st n hst =>
    exact hs.setStation rfl rfl ⟨(hwf i st hst).1, (List.length_erase_le).trans (hwf i st hst).2.1, (hwf i st hst).2.2⟩
  | vacate i st _ hst _ _ =>
    refine ⟨hs.1, fun j a hj => ?_⟩
    replace hj : (s.vacate i st).station j = some a := hj
    rw [State.vacate_station] at hj
    split at hj
    · cases hj
    · exact hwf j a hj
  | wake i st l cause hst hasleep =>
    rw [State.wakeUp_eq]
    exact hs.setStation rfl rfl ((hwf i st hst).wake hasleep cause (by split <;> omega) _)
  | hold i st cause b bytes hst hw _ =>
    exact hs.setStation rfl rfl ((hwf i st hst).restate (fun _ => Or.inl (by rw [hw]; rfl)) fun _ hl => nomatch hl)
  | retry i st x hst _ hlimit =>
    have hmax : s.mport.settings.wakeAttemptLimit.toNat ≤ 15 := hs.1.2.2.2.1
    rw [State.attempt_eq hst]
    exact hs.setStation rfl rfl ((hwf i st hst).attempts (by split <;> omega))
  | endWaking i st cause held q _ hst hw _ hlease _ =>
    refine hs.setStation (i := i) (st := { st with state := q }) ?_ (by simp)
      ((hwf i st hst).restate (fun _ => Or.inl (by rw [hw]; rfl)) fun l hl => by rw [hlease] at hl; cases hl)
    simp [State.setStation, State.setRecord, State.generation]
  | releaseWaking i st cause b q _ hst hw _ _ hlease _ =>
    exact hs.setStation (st := { st with state := q }) rfl rfl
      ((hwf i st hst).restate (fun _ => Or.inl (by rw [hw]; rfl)) fun l hl => by rw [hlease] at hl; cases hl)
  | entryEnds x e _ => exact hs.congr (by simp) fun i => State.station_of_stab (s := s) (by simp) i
  | passFrame | passTrigger => exact hs.congr rfl fun _ => rfl
  | hardReset => exact .of_vacant Settings.reset_inRange (State.hardReset_station s)
  | softReset => exact .of_vacant hs.1 (State.softReset_station s)
  | _ => exact hs.congr rfl fun _ => rfl

/-! ### The span lists of the rules (R60) -/

/-- Spans that follow an offset: each is in bounds, starts at or after it, and none lies over another. -/
theorem spansFollow_bounds {spans : List Span} {after : Nat} (h : spansFollow after spans = true) :
    (∀ x ∈ spans, x.offset ≤ 1535 ∧ 1 ≤ x.length ∧ x.length ≤ 64 ∧ x.offset + x.length ≤ 1536) ∧
      (∀ x ∈ spans, after ≤ x.offset) ∧ spans.Pairwise fun x y => x.offset + x.length ≤ y.offset := by
  induction spans generalizing after with
  | nil => exact ⟨fun _ h => (nomatch h), fun _ h => (nomatch h), .nil⟩
  | cons x rest ih =>
    simp only [spansFollow, Bool.and_eq_true, decide_eq_true_eq] at h
    obtain ⟨⟨⟨⟨⟨hoffset, hpos⟩, hlength⟩, hend⟩, hafter⟩, hrest⟩ := h
    obtain ⟨hbounds, hfollow, hpairs⟩ := ih hrest
    refine ⟨?_, ?_, .cons hfollow hpairs⟩
    · exact List.forall_mem_cons.mpr ⟨⟨hoffset, hpos, hlength, hend⟩, hbounds⟩
    · exact List.forall_mem_cons.mpr ⟨hafter, fun y hy => by have := hfollow y hy; omega⟩

theorem spansValid_sound {spans : List Span} (h : spansValid spans = true) : SpansValid spans := by
  simp only [spansValid, Bool.and_eq_true, decide_eq_true_eq] at h
  obtain ⟨⟨⟨hpos, hmax⟩, hfollow⟩, htotal⟩ := h
  obtain ⟨hbounds, -, hpairs⟩ := spansFollow_bounds hfollow
  exact ⟨hpos, hmax, hbounds, hpairs, htotal⟩

theorem State.RulesValid.congr {s u : State} (h : s.RulesValid)
    (hr : ∀ n : RuleNumber, u.rstore[n.val].body = s.rstore[n.val].body) : u.RulesValid :=
  fun n b hb => h n b (hr n ▸ hb)

theorem updateCount_body (v : Vector Rule 96) (n m : RuleNumber) (f : Nat → Nat) :
    (updateCount v n f)[m.val].body = v[m.val].body := by rw [updateCount_get]

theorem lowerCounts_body (rules : List RuleNumber) (v : Vector Rule 96) (m : RuleNumber) :
    (lowerCounts v rules)[m.val].body = v[m.val].body := by
  induction rules generalizing v with
  | nil => rfl
  | cons n rest ih => rw [lowerCounts, ih, updateCount_body]

theorem State.RulesValid.of_free {s : State} (h : s.rstore = Vector.replicate 96 { refCount := 0, body := none }) :
    s.RulesValid := fun n b hb => by simp [h] at hb

theorem State.Effect.rules {s u : State} (h : s.Effect u) (hc : s.ChecksPassed) (hs : s.RulesValid) : u.RulesValid := by
  cases h with
  | attachRule i st n _ _ => exact hs.congr fun m => updateCount_body _ _ _ _
  | detachRule i st n _ => exact hs.congr fun m => updateCount_body _ _ _ _
  | vacate i st _ _ _ _ => exact hs.congr fun m => lowerCounts_body _ _ _
  | replaceRule n r hvalid =>
    intro m b hb
    simp only [tset_get] at hb
    split at hb
    · exact spansValid_sound (hvalid hc b hb)
    · exact hs m b hb
  | hardReset => exact .of_free rfl
  | softReset => exact .of_free rfl
  | _ => exact hs.congr fun m => by simp

/-- Settles O58: each record, configuration value and span list enters after the checks that bound it. -/
theorem stationsKept : Obligations.StationsKept := by
  unfold Obligations.StationsKept
  intro c s t hs hr hc ht
  exact exec_keeps (P := fun v => v.StationsWellFormed ∧ v.RulesValid ∧ v.ChecksPassed)
    (fun _ _ he ⟨hv, hrules, hchecks⟩ => ⟨he.stations hchecks hv, he.rules hchecks hrules, he.checks hchecks⟩)
    (fun _ hv => hv) ⟨hs, hr, hc⟩ ht

end Sys2Proof.Machine
end

section
/-! PROOF. The steering link and the records agree after every command (R22, R147, R159, Table 2-1). -/

namespace Sys2Proof.Machine

/-- Seconds pass at an ASLEEP record alone, and it stays ASLEEP. -/
theorem StationState.passSeconds_fits (q : StationState) (n : Nat) :
    (∀ a b, requestsFit (some q) a b → requestsFit (some (q.passSeconds n)) a b) ∧
      (q.settled = true → (q.passSeconds n).settled = true) := by
  cases q with
  | asleep l => cases l <;> exact ⟨fun _ _ h => h, fun h => h⟩
  | _ => exact ⟨fun _ _ h => h, fun h => h⟩

theorem State.SteeringMatches.passSeconds {s : State} (h : s.SteeringMatches) (n : Nat) : (s.passSeconds n).SteeringMatches := by
  rw [State.steeringMatches_iff] at h ⊢
  obtain ⟨hshape, hsettled, hagrees⟩ := h
  refine ⟨hshape, fun hm i st hi => ?_, fun i => ?_⟩
  · rw [State.passSeconds_station] at hi
    obtain ⟨st', hst', rfl⟩ := Option.map_eq_some_iff.mp hi
    exact (st'.state.passSeconds_fits n).2 (hsettled hm i st' hst')
  · have hi := hagrees i
    rw [State.passSeconds_station]
    cases hst : s.station i with
    | none => rw [hst] at hi; exact hi
    | some st =>
      rw [hst] at hi
      exact hi.congr rfl rfl rfl (st.state.passSeconds_fits n).1

/-- R14: a record is enrolled AWAKE in a slot that had none, and with none no request. -/
theorem State.SteeringMatches.enrol {s : State} (h : s.SteeringMatches) {i : Slot} {st : Station} (hvacant : s.station i = none)
    (hst : st.state = .awake) : (s.setStation i st).SteeringMatches := by
  obtain ⟨hunsent, hsent⟩ := (hvacant ▸ h.agrees i).none_of_vacant
  refine h.setRecord (State.station_setStation_of rfl) rfl (Or.inr fun x hx => by cases hx; rw [hst]; rfl) ?_
  rw [hunsent, hsent]
  exact .rest (by rw [hst]; exact StationState.atRest_awake)

theorem State.Effect.steers {s u : State} (h : s.Effect u) (hs : s.SteeringMatches) : u.SteeringMatches := by
  cases h with
  | steering t hsteer => exact hsteer hs
  | note i st _ _ _ _ _ hst => exact hs.setFields hst rfl rfl ⟨rfl, rfl, rfl⟩ rfl
  | restate i st q t _ _ hsteer => exact hsteer hs
  | seconds n => exact hs.passSeconds n
  | enrol c i _ _ _ hvacant => exact hs.enrol hvacant rfl
  | template i st t hst _ _ => exact hs.setFields hst rfl rfl ⟨rfl, rfl, rfl⟩ rfl
  | addIdentifier i st id flag hst _ _ _ => exact hs.setFields hst rfl rfl ⟨rfl, rfl, rfl⟩ rfl
  | removeIdentifier i st id hst _ => exact hs.setFields hst rfl rfl ⟨rfl, rfl, rfl⟩ rfl
  | attachRule i st n hst _ => exact hs.setFields hst rfl rfl ⟨rfl, rfl, rfl⟩ rfl
  | detachRule i st n hst => exact hs.setFields hst rfl rfl ⟨rfl, rfl, rfl⟩ rfl
  | vacate i st t _ _ hsteer => exact hsteer hs
  | wake i st l cause hst hasleep =>
    rw [State.wakeUp_eq]
    exact hs.setRest hst rfl rfl ⟨rfl, rfl, rfl⟩ (by rw [hasleep]; exact StationState.atRest_asleep l)
      (StationState.atRest_waking _ _) fun hset => by rw [hasleep] at hset; cases hset
  | hold i st cause b bytes hst hw _ =>
    exact hs.setRest hst rfl rfl ⟨rfl, rfl, rfl⟩ (by rw [hw]; exact StationState.atRest_waking _ _)
      (StationState.atRest_waking _ _) fun hset => by rw [hw] at hset; cases hset
  | retry i st x hst _ _ =>
    rw [State.attempt_eq hst]
    exact hs.setFields hst rfl rfl ⟨rfl, rfl, rfl⟩ rfl
  | endWaking i st cause held q t _ _ _ _ hsteer =>
    refine (hsteer hs).congr rfl fun j => ?_
    rw [State.station_of_stab]
    simp [State.setStation, State.setRecord, State.generation]
  | releaseWaking i st cause b q t _ _ _ _ _ hsteer => exact (hsteer hs).congr rfl fun _ => rfl
  | entryEnds x e _ => exact hs.congr (by simp) fun i => State.station_of_stab (s := s) (by simp) i
  | passFrame | passTrigger => exact hs.congr rfl fun _ => rfl
  | hardReset => exact .of_reset (State.hardReset_station s) (q := 0#4) rfl
  | softReset => exact .of_reset (State.softReset_station s) (q := s.steer.sequence) rfl
  | _ => exact hs.congr rfl fun _ => rfl

/-- Settles O59: a record enters a state together with the request it places or has answered, and the mode changes
with its CLEAR_ALL. -/
theorem steeringKept : Obligations.SteeringKept := by
  unfold Obligations.SteeringKept
  intro c s t hs ht
  exact exec_keeps (fun _ _ he => he.steers) (fun _ hv => hv.congr rfl fun _ => rfl) hs ht

end Sys2Proof.Machine
end

section
/-! PROOF. The step, the reset contents and the two resets (R203, R1, R140, R144, R164, R202). -/

namespace Sys2Proof.Machine

/-- Settles O1: a step takes the front of the queue, or lets the message being sent end. -/
theorem stepTakesTheFrontCommand : Obligations.StepTakesTheFrontCommand := by
  unfold Obligations.StepTakesTheFrontCommand
  refine ⟨fun s c rest h => step_cons h, fun s h => ?_⟩
  unfold step
  split
  · rfl
  · next c rest hcons => rw [h] at hcons; cases hcons

/-! ### The reset contents -/

theorem State.reset_station (i : Slot) : State.reset.station i = none := by simp [State.station, State.reset]

theorem State.reset_generation (i : Slot) : State.reset.generation i = 0#8 := by simp [State.generation, State.reset]

theorem State.reset_sticky (f : StickyFlag) : State.reset.sticky f = false := by cases f <;> rfl

theorem State.reset_countsMatch : State.reset.CountsMatch := (State.CountsMatch.hardReset State.reset).congr rfl rfl

/-- No condition of either pin holds after hard reset. -/
theorem State.reset_pins : State.reset.PinsDriven := ⟨rfl, rfl⟩

/-- Settles O3: the contents one after another, and each of the invariants holds of them. -/
theorem resetContents : Obligations.ResetContents := by
  unfold Obligations.ResetContents
  refine ⟨⟨fun i => ⟨State.reset_station i, State.reset_generation i⟩, rfl, fun n => by simp [State.reset],
    fun j => by simp [State.reset, Icls.reset], rfl, rfl, rfl, fun b => by simp [State.reset, Resp.reset], rfl, rfl,
    fun i => by simp [State.reset], fun b => by simp [State.reset], rfl, rfl, rfl, rfl, rfl, rfl, rfl, rfl, rfl, rfl, rfl,
    fun _ => rfl, rfl, rfl, rfl, State.reset_sticky, fun _ => rfl, rfl, ⟨rfl, List.not_mem_nil⟩, rfl, rfl, rfl, rfl⟩,
    Nq.reset_wellFormed, AnswersMatch.reset, .of_reset State.reset_station rfl rfl, SlotsMatch.reset,
    .of_reset State.reset_station rfl, .of_reset State.reset_station rfl, State.reset_countsMatch,
    .of_vacant State.reset_station, .of_vacant Settings.reset_inRange State.reset_station, .of_free rfl, .of_idle rfl,
    .of_reset State.reset_station (q := 0#4) rfl, ⟨.nil, .nil, trivial⟩, State.reset_pins⟩

/-! ### What a reset leaves of the outputs -/

/-- R140: a transfer on the emission port ends with the abort mark. -/
theorem State.abortTransfer_out (s : State) : s.abortTransfer.out =
    { s.out with emitted := s.out.emitted ++ (s.emit.sending.map fun x => (x.2, TransferEnd.aborted)).toList } := by
  unfold State.abortTransfer
  cases s.emit.sending with
  | none => simp
  | some x => rfl

/-- R140, R144, R164: the transfer and the message being sent are both cut off. -/
theorem State.resetOutputs_eq (s : State) : s.resetOutputs = { s.out with
    sending := none
    emitted := s.out.emitted ++ (s.emit.sending.map fun x => (x.2, TransferEnd.aborted)).toList
    steered := s.out.steered ++ (s.out.sending.map fun m => (m, MessageEnd.cutOff)).toList } := by
  unfold State.resetOutputs
  rw [State.abortTransfer_out]
  rfl

/-- R1: a soft reset vacates every slot and raises its generation. -/
theorem State.softReset_generation (s : State) (i : Slot) : s.softReset.generation i = s.generation i + 1#8 := by
  simp [State.softReset, State.generation, Record.softReset]

/-- With the configuration in range no condition of NINT holds after a soft reset. -/
theorem State.softReset_nint {s : State} (h : s.mport.settings.InRange) : s.softReset.nintAsserted = false := by
  have htrigger : 1 ≤ s.mport.settings.noticeTrigger.toNat := h.2.2.2.2.2.2.1
  have hnone : ¬ s.softReset.nintAsserted = true := by
    rw [State.nintAsserted_iff]
    rintro ⟨-, hconditions⟩
    simp only [State.softReset, State.reset, Nq.reset, Cmde.reset, Mport.softReset, List.filter_nil, List.length_nil,
      List.not_mem_nil, false_and, exists_false, Bool.false_eq_true, or_false] at hconditions
    omega
  simpa using hnone

theorem exec_softReset {s : State} (h : s.mport.spi = none ∨ PortEvent.softReset ∈ s.mport.issued) :
    exec .softReset s = .next s.softReset.drivePins := execSoftReset_of h

/-! ### A command that begins a transaction -/

/-- What a command does once its transaction has begun: it does not see how the pins stood. -/
def ActsAfterBegin (c : Instr) (act : State → State) : Prop :=
  (∀ s : State, s.BeginsTransaction c → exec c s = settle (act s.beginTransaction)) ∧
    ∀ s u : State, settle (act (s.withPinsOf u)) = settle (act s)

theorem settle_of_pins {s t u : State} (h : s = t.withPinsOf u) : settle s = settle t := by rw [h, settle_withPinsOf]

theorem State.outsideTeardown_pins (v : State) : State.OutsideTeardown fun u => u.withPinsOf v :=
  ⟨fun _ _ => rfl, fun _ _ _ => rfl, fun _ _ => rfl, fun _ _ => rfl, fun _ _ _ => rfl⟩

theorem State.purge_pins (s u : State) : (s.withPinsOf u).purge = s.purge.withPinsOf u := by
  unfold State.purge
  exact State.freeResources_comm (f := fun v => v.withPinsOf u) (fun _ k => by cases k <;> rfl) s.emit.waiting
    { s with emit := { s.emit with waiting := [] } }

theorem State.beginStop_pins (s u : State) : (s.withPinsOf u).beginStop = s.beginStop.withPinsOf u := by
  have hteardown : (s.withPinsOf u).teardown = s.teardown.withPinsOf u :=
    (State.outsideTeardown_pins u).teardownAll (List.finRange 64) s
  rw [State.beginStop_eq, State.beginStop_eq, hteardown, State.purge_pins]
  generalize s.teardown.purge = v
  rfl

theorem State.takeRunCleared_pins (s u : State) : (s.withPinsOf u).takeRunCleared = s.takeRunCleared.withPinsOf u := by
  unfold State.takeRunCleared
  rw [show (s.withPinsOf u).steer = s.steer from rfl]
  cases s.steer.mode with
  | running => exact State.beginStop_pins s u
  | _ => rfl

theorem State.takeRunSet_pins (s u : State) : (s.withPinsOf u).takeRunSet = s.takeRunSet.withPinsOf u := by
  unfold State.takeRunSet
  rw [show (s.withPinsOf u).steer = s.steer from rfl]
  cases s.steer.mode <;> rfl

theorem State.runSet_pins (s u : State) : (s.withPinsOf u).runSet = s.runSet.withPinsOf u := by
  unfold State.runSet
  rw [show (s.withPinsOf u).mport = s.mport from rfl]
  split
  · exact State.takeRunSet_pins { s with mport := s.mport.takeIssued .runSet } u
  · rfl
  · split
    · rfl
    · exact State.takeRunSet_pins { s with mport := { s.mport with run := true } } u

theorem State.runCleared_pins (s u : State) : (s.withPinsOf u).runCleared = s.runCleared.withPinsOf u := by
  unfold State.runCleared
  rw [show (s.withPinsOf u).mport = s.mport from rfl]
  split
  · exact State.takeRunCleared_pins { s with mport := s.mport.takeIssued .runCleared } u
  · rfl
  · split
    · exact State.takeRunCleared_pins { s with mport := { s.mport with run := false } } u
    · rfl

theorem State.takeGo_pins (s u : State) : (s.withPinsOf u).takeGo = s.takeGo.withPinsOf u := by
  unfold State.takeGo
  rw [show (s.withPinsOf u).cmde = s.cmde from rfl]
  cases s.cmde.engine <;> rfl

theorem State.readTake_pins (s u : State) (first : Nat) : (s.withPinsOf u).readTake first = (s.readTake first).withPinsOf u := by
  unfold State.readTake
  split <;> rfl

theorem State.takeClear_pins (s u : State) (f : StickyFlag) : (s.withPinsOf u).takeClear f = (s.takeClear f).withPinsOf u := by
  unfold State.takeClear State.clearSticky
  cases f <;> rfl

theorem StickyFlag.clearRow_injective : Function.Injective StickyFlag.clearRow := by
  intro f g h
  cases f <;> cases g <;> simp [StickyFlag.clearRow] at h ⊢

theorem State.beginsTransaction_runSet {s : State} (h : s.BeginsTransaction .runSet) : s.mport.nextRun = none := by
  simp only [State.BeginsTransaction, reduceCtorEq, or_self, exists_false, false_or, or_false, true_and, false_and] at h
  rcases h with h | ⟨f, hf, -⟩
  · exact h
  · cases f <;> cases hf

theorem State.beginsTransaction_runCleared {s : State} (h : s.BeginsTransaction .runCleared) : s.mport.nextRun = none := by
  simp only [State.BeginsTransaction, reduceCtorEq, or_self, exists_false, false_or, true_and, false_and] at h
  rcases h with h | ⟨f, hf, -⟩
  · exact h
  · cases f <;> cases hf

theorem State.beginsTransaction_go {s : State} (h : s.BeginsTransaction .go) : PortEvent.go ∉ s.mport.issued := by
  simp only [State.BeginsTransaction, reduceCtorEq, or_self, exists_false, false_or, true_and, false_and] at h
  rcases h with h | ⟨f, hf, -⟩
  · exact h
  · cases f <;> cases hf

theorem State.beginsTransaction_clearRow {s : State} {f : StickyFlag} (h : s.BeginsTransaction f.clearRow) :
    PortEvent.clear f ∉ s.mport.issued := by
  have hrow : ∃ g : StickyFlag, f.clearRow = g.clearRow ∧ PortEvent.clear g ∉ s.mport.issued := by
    cases f <;> simpa [State.BeginsTransaction, StickyFlag.clearRow] using h
  obtain ⟨g, hg, hnot⟩ := hrow
  rwa [StickyFlag.clearRow_injective hg]

theorem exec_clearRow (f : StickyFlag) (s : State) : exec f.clearRow s = settle (s.clearRow f) := by
  cases f <;> rfl

/-- Every command that begins a transaction acts on the state with the transaction begun. -/
theorem State.BeginsTransaction.acts {c : Instr} {s : State} (h : s.BeginsTransaction c) : ∃ act, ActsAfterBegin c act := by
  rcases h with ⟨addr, data, rfl | rfl⟩ | ⟨first, rfl | rfl⟩ | ⟨v, rfl⟩ | ⟨f, b, rfl⟩ | ⟨first, bytes, rfl⟩ | ⟨f, b, rfl⟩ |
    ⟨rfl | rfl, -⟩ | ⟨rfl, -⟩ | ⟨f, rfl, -⟩
  case inl.inl => exact ⟨fun u => u.holdTransaction (.write addr data), fun _ _ => rfl, fun _ _ => rfl⟩
  case inl.inr =>
    exact ⟨fun u => u.writeEvent addr data, fun _ _ => rfl, fun u v => settle_of_pins (u.writeEvent_pins v addr data)⟩
  case inr.inl.inl =>
    exact ⟨fun u => (u.readTake first).holdTransaction .read, fun _ _ => rfl, fun u v => by
      simp only [State.readTake_pins]; rfl⟩
  case inr.inl.inr => exact ⟨fun u => u.readTake first, fun _ _ => rfl, fun u v => settle_of_pins (u.readTake_pins v first)⟩
  case inr.inr.inl => exact ⟨fun u => { u with mport := { u.mport with intEnable := v } }, fun _ _ => rfl, fun _ _ => rfl⟩
  case inr.inr.inr.inl =>
    exact ⟨fun u => u.writeTiming f b, fun _ _ => rfl, fun u v => settle_of_pins (u.writeTiming_pins v f b)⟩
  case inr.inr.inr.inr.inl =>
    exact ⟨fun u => u.writeRecognition (writtenAt (0x010 + first) bytes), fun _ _ => rfl,
      fun u v => settle_of_pins (u.writeRecognition_pins v _)⟩
  case inr.inr.inr.inr.inr.inl =>
    exact ⟨fun u => u.writeNotice f b, fun _ _ => rfl, fun u v => settle_of_pins (u.writeNotice_pins v f b)⟩
  case inr.inr.inr.inr.inr.inr.inl.inl =>
    refine ⟨State.runSet, fun u hu => ?_, fun u v => settle_of_pins (u.runSet_pins v)⟩
    show settle (u.unlessIssued u.mport.nextRun.isSome).runSet = _
    rw [State.beginsTransaction_runSet hu]
    rfl
  case inr.inr.inr.inr.inr.inr.inl.inr =>
    refine ⟨State.runCleared, fun u hu => ?_, fun u v => settle_of_pins (u.runCleared_pins v)⟩
    show settle (u.unlessIssued u.mport.nextRun.isSome).runCleared = _
    rw [State.beginsTransaction_runCleared hu]
    rfl
  case inr.inr.inr.inr.inr.inr.inr.inl =>
    refine ⟨fun u => State.takeGo { u with mport := u.mport.takeIssued .go }, fun u hu => ?_, fun u v =>
      settle_of_pins (State.takeGo_pins { u with mport := u.mport.takeIssued .go } v)⟩
    show settle (State.takeGo _) = _
    simp only [decide_eq_false (State.beginsTransaction_go hu), State.unlessIssued, Bool.false_eq_true, if_false]
  case inr.inr.inr.inr.inr.inr.inr.inr =>
    refine ⟨fun u => u.takeClear f, fun u hu => ?_, fun u v => settle_of_pins (u.takeClear_pins v f)⟩
    rw [exec_clearRow, State.clearRow, decide_eq_false (State.beginsTransaction_clearRow hu)]
    rfl

/-- With the port idle no transaction is left to end, so a command that begins one begins it where it stands. -/
theorem ActsAfterBegin.congr {c : Instr} {act : State → State} (h : ActsAfterBegin c act) {s a u : State}
    (hs : s.BeginsTransaction c) (ha : a.BeginsTransaction c) (hbegin : a.beginTransaction = s.beginTransaction.withPinsOf u) :
    exec c s = exec c a := by
  obtain ⟨hexec, hpins⟩ := h
  rw [hexec s hs, hexec a ha, hbegin, hpins]

/-- With no event issued, whatever begins a transaction does so. -/
theorem State.BeginsTransaction.of_none_issued {s a : State} {c : Instr} (h : s.BeginsTransaction c)
    (ha : a.mport.issued = []) : a.BeginsTransaction c := by
  have hrun : a.mport.nextRun = none := by simp [Mport.nextRun, ha]
  unfold State.BeginsTransaction at h ⊢
  simp only [ha, hrun, List.not_mem_nil, not_false_eq_true, and_true]
  exact h.imp_right (Or.imp_right (Or.imp_right (Or.imp_right (Or.imp_right (Or.imp_right (Or.imp And.left
    (Or.imp And.left fun ⟨f, hf, _⟩ => ⟨f, hf⟩)))))))

theorem State.BeginsTransaction.congr {s a : State} {c : Instr} (h : s.BeginsTransaction c)
    (ha : a.mport.issued = s.mport.issued) : a.BeginsTransaction c := by
  have hrun : a.mport.nextRun = s.mport.nextRun := by simp [Mport.nextRun, ha]
  unfold State.BeginsTransaction at h ⊢
  rwa [ha, hrun]

/-- R203: a soft reset issued is taken before the next transaction. -/
theorem exec_after_softReset {c : Instr} {s a : State} (hspi : s.mport.spi = none)
    (hissued : PortEvent.softReset ∈ s.mport.issued) (hc : s.BeginsTransaction c) (ha : exec .softReset s = .next a) :
    exec c s = exec c a := by
  obtain ⟨act, hact⟩ := hc.acts
  rw [exec_softReset (Or.inr hissued)] at ha
  cases ha
  refine hact.congr (u := s.softReset.drivePins) hc (hc.of_none_issued rfl) ?_
  rw [State.beginTransaction_of_softReset hspi hissued]
  exact State.beginTransaction_of_idle ⟨rfl, List.not_mem_nil⟩

/-- The begin of a transaction ends the one before it first. -/
theorem State.raiseNcs_beginTransaction (s : State) : (s.raiseNcs []).beginTransaction = s.beginTransaction := by
  simp only [State.beginTransaction, State.raiseNcs_none (s.raiseNcs_spi [])]

/-- R200, R201: a transaction in progress ends before the next begins. -/
theorem exec_after_raiseNcs {c : Instr} {s a : State} (hc : s.BeginsTransaction c) (hca : a.BeginsTransaction c)
    (ha : settle (s.raiseNcs []) = .next a) : exec c s = exec c a := by
  obtain ⟨act, hact⟩ := hc.acts
  rw [settle_next.mp ha] at hca ⊢
  obtain ⟨u, hu⟩ := (s.raiseNcs []).drivePins_eq
  obtain ⟨v, hv⟩ := (s.raiseNcs []).beginTransaction_pins u
  rw [hu] at hca ⊢
  exact hact.congr hc hca (hv.trans (by rw [State.raiseNcs_beginTransaction]))

/-- Settles O4: a reset by its contents and its outputs; a command that begins a transaction acts on the state with
what was in progress ended. -/
theorem resetsResult : Obligations.ResetsResult := by
  unfold Obligations.ResetsResult
  refine ⟨⟨fun s => ?hard, fun s hrange hspi => ?soft⟩, fun c s a hspi hissued hc ha => ?_, fun c s a addr data hspi hc hca ha => ?_,
    fun c s a hspi hc ha => ?_⟩
  case hard =>
    refine ⟨s.hardReset.drivePins, rfl, rfl, rfl, ?_⟩
    show s.resetOutputs.capture = _ ∧ s.resetOutputs.sending = none ∧ s.resetOutputs.steered = _ ∧ s.resetOutputs.emitted = _
    rw [State.resetOutputs_eq]
    exact ⟨rfl, rfl, rfl, rfl⟩
  case soft =>
    refine ⟨s.softReset.drivePins, exec_softReset hspi, fun i => ⟨s.softReset_station i, s.softReset_generation i⟩, rfl, rfl, ?_,
      rfl, ?_⟩
    · simp only [State.drivePins, State.softReset_nint hrange]
      rfl
    · show s.resetOutputs.capture = _ ∧ s.resetOutputs.sending = none ∧ s.resetOutputs.steered = _ ∧ s.resetOutputs.emitted = _
      rw [State.resetOutputs_eq]
      exact ⟨rfl, rfl, rfl, rfl⟩
  · exact exec_after_softReset hspi hissued hc ha
  · refine exec_after_raiseNcs hc hca ?_
    rw [← ha]
    simp only [exec, execRegisterWrite, hspi]
  · have hraise : settle (s.raiseNcs []) = .next a := by
      rw [← ha]
      simp only [exec, execTake, hspi]
    refine exec_after_raiseNcs hc (hc.congr ?_) hraise
    rw [settle_next.mp hraise, State.raiseNcs_read hspi]
    rfl

end Sys2Proof.Machine
end

section
/-! PROOF. Bytes and fields: what a byte or a field of a list of bytes is, and reading back what was written (00 7.3). -/

namespace Sys2Proof.Machine

/-! ### Single bytes -/

theorem byteAt_nil (k : Nat) : byteAt [] k = 0#8 := rfl

theorem byteAt_cons_zero (b : Byte) (l : List Byte) : byteAt (b :: l) 0 = b := rfl

theorem byteAt_cons_succ (b : Byte) (l : List Byte) (k : Nat) : byteAt (b :: l) (k + 1) = byteAt l k := by simp [byteAt]

theorem byteAt_cons_pos {k : Nat} (hk : 0 < k) (b : Byte) (l : List Byte) : byteAt (b :: l) k = byteAt l (k - 1) := by
  obtain ⟨j, rfl⟩ : ∃ j, k = j + 1 := ⟨k - 1, by omega⟩
  exact byteAt_cons_succ b l j

theorem byteAt_of_length_le {l : List Byte} {k : Nat} (h : l.length ≤ k) : byteAt l k = 0#8 := by
  simp [byteAt, List.getD, List.getElem?_eq_none h]

theorem byteAt_append_left {a : List Byte} {k : Nat} (h : k < a.length) (b : List Byte) : byteAt (a ++ b) k = byteAt a k := by
  simp [byteAt, List.getD, List.getElem?_append_left h]

theorem byteAt_append_right {a : List Byte} {k : Nat} (h : a.length ≤ k) (b : List Byte) :
    byteAt (a ++ b) k = byteAt b (k - a.length) := by simp [byteAt, List.getD, List.getElem?_append_right h]

theorem byteAt_replicate_zero (n k : Nat) : byteAt (List.replicate n 0#8) k = 0#8 := by
  simp only [byteAt, List.getD, List.getElem?_replicate]
  split <;> rfl

theorem byteAt_take {l : List Byte} {n k : Nat} (h : k < n) : byteAt (l.take n) k = byteAt l k := by
  simp [byteAt, List.getD, h]

theorem byteAt_drop (l : List Byte) (n k : Nat) : byteAt (l.drop n) k = byteAt l (n + k) := by
  simp [byteAt, List.getD]

theorem byteAt_map_range {f : Nat → Byte} {n k : Nat} : byteAt ((List.range n).map f) k = if k < n then f k else 0#8 := by
  by_cases h : k < n <;> simp [byteAt, List.getD, h]

/-! ### Numbers as bytes -/

theorem byteAt_beBytes {len k : Nat} (n : Nat) (h : k < len) :
    byteAt (beBytes len n) k = BitVec.ofNat 8 (n / 256 ^ (len - 1 - k)) := by
  induction len generalizing k with
  | zero => omega
  | succ len ih =>
    cases k with
    | zero => simp [beBytes, byteAt_cons_zero]
    | succ k =>
      simp only [beBytes, byteAt_cons_succ]
      rw [ih (by omega)]
      congr 3
      omega

theorem beNatFrom_eq (acc : Nat) (l : List Byte) : beNatFrom acc l = acc * 256 ^ l.length + beNat l := by
  induction l generalizing acc with
  | nil => simp [beNatFrom, beNat]
  | cons b l ih =>
    rw [beNat, beNatFrom, beNatFrom, ih, ih (0 * 256 + b.toNat), List.length_cons, Nat.pow_succ]
    ring

@[simp] theorem beNat_nil : beNat [] = 0 := rfl

@[simp] theorem beNat_cons (b : Byte) (l : List Byte) : beNat (b :: l) = b.toNat * 256 ^ l.length + beNat l := by
  rw [beNat, beNatFrom, beNatFrom_eq]
  simp

theorem beNat_append (a b : List Byte) : beNat (a ++ b) = beNat a * 256 ^ b.length + beNat b := by
  induction a with
  | nil => simp
  | cons x a ih =>
    rw [List.cons_append, beNat_cons, ih, beNat_cons, List.length_append, Nat.pow_add]
    ring

theorem beNat_replicate_zero (n : Nat) : beNat (List.replicate n 0#8) = 0 := by
  induction n with
  | zero => rfl
  | succ n ih => simp [List.replicate_succ, ih]

theorem beNat_lt (l : List Byte) : beNat l < 256 ^ l.length := by
  induction l with
  | nil => simp
  | cons b l ih =>
    have hb : b.toNat + 1 ≤ 256 := b.isLt
    calc beNat (b :: l) < b.toNat * 256 ^ l.length + 256 ^ l.length := by rw [beNat_cons]; omega
      _ = (b.toNat + 1) * 256 ^ l.length := by ring
      _ ≤ 256 * 256 ^ l.length := Nat.mul_le_mul_right _ hb
      _ = 256 ^ (b :: l).length := by rw [List.length_cons, Nat.pow_succ]; ring

/-- A number read back from its bytes, of which those above the field are lost. -/
theorem beNat_beBytes (len n : Nat) : beNat (beBytes len n) = n % 256 ^ len := by
  induction len with
  | zero => simp [beBytes, Nat.mod_one]
  | succ len ih =>
    rw [beBytes, beNat_cons, ih, beBytes_length, BitVec.toNat_ofNat]
    calc n / 256 ^ len % 2 ^ 8 * 256 ^ len + n % 256 ^ len = n % 256 ^ len + 256 ^ len * (n / 256 ^ len % 256) := by
          norm_num; ring
      _ = n % 256 ^ (len + 1) := by rw [Nat.pow_succ, Nat.mod_mul]

theorem beNat_beBytes_of_lt {len n : Nat} (h : n < 256 ^ len) : beNat (beBytes len n) = n := by
  rw [beNat_beBytes, Nat.mod_eq_of_lt h]

theorem beBytes_add_mul (len n m : Nat) : beBytes len (m * 256 ^ len + n) = beBytes len n := by
  induction len generalizing m with
  | zero => rfl
  | succ len ih =>
    have hmul : m * 256 ^ (len + 1) = m * 256 * 256 ^ len := by rw [Nat.pow_succ]; ring
    rw [beBytes, beBytes, hmul, ih]
    congr 1
    apply BitVec.eq_of_toNat_eq
    have hdiv : (m * 256 * 256 ^ len + n) / 256 ^ len = m * 256 + n / 256 ^ len := by
      rw [Nat.add_comm, Nat.add_mul_div_right _ _ (by positivity), Nat.add_comm]
    rw [BitVec.toNat_ofNat, BitVec.toNat_ofNat, hdiv]
    omega

/-- The bytes of a number made of bytes are these bytes. -/
theorem beBytes_beNat (l : List Byte) : beBytes l.length (beNat l) = l := by
  induction l with
  | nil => rfl
  | cons b l ih =>
    rw [List.length_cons, beBytes, beNat_cons, beBytes_add_mul, ih]
    congr 1
    apply BitVec.eq_of_toNat_eq
    rw [BitVec.toNat_ofNat, Nat.add_comm, Nat.add_mul_div_right _ _ (by positivity), Nat.div_eq_of_lt (beNat_lt l), Nat.zero_add]
    exact Nat.mod_eq_of_lt b.isLt

/-! ### Fields -/

theorem fieldAt_append_right {a : List Byte} {off : Nat} (h : a.length ≤ off) (b : List Byte) (len : Nat) :
    fieldAt (a ++ b) off len = fieldAt b (off - a.length) len := by
  rw [fieldAt, List.drop_append, List.drop_of_length_le h, List.nil_append, fieldAt]

theorem fieldAt_append_left {a : List Byte} {off len : Nat} (h : off + len ≤ a.length) (b : List Byte) :
    fieldAt (a ++ b) off len = fieldAt a off len := by
  rw [fieldAt, List.drop_append_of_le_length (by omega), List.take_append_of_le_length (by simp; omega), fieldAt]

theorem fieldAt_cons_succ (b : Byte) (l : List Byte) (off len : Nat) : fieldAt (b :: l) (off + 1) len = fieldAt l off len := rfl

theorem fieldAt_cons_pos {off : Nat} (h : 0 < off) (b : Byte) (l : List Byte) (len : Nat) :
    fieldAt (b :: l) off len = fieldAt l (off - 1) len := by
  obtain ⟨k, rfl⟩ : ∃ k, off = k + 1 := ⟨off - 1, by omega⟩
  rfl

theorem fieldAt_whole {l : List Byte} {len : Nat} (h : l.length = len) : fieldAt l 0 len = beNat l := by
  rw [fieldAt, List.drop_zero, List.take_of_length_le (by omega)]

/-- A field at the front of a list that has it as bytes. -/
theorem fieldAt_beBytes_append {len n : Nat} (h : n < 256 ^ len) (l : List Byte) : fieldAt (beBytes len n ++ l) 0 len = n := by
  rw [fieldAt_append_left (by simp), fieldAt_whole (beBytes_length len n), beNat_beBytes_of_lt h]

theorem fieldAt_one (l : List Byte) (off : Nat) : fieldAt l off 1 = (byteAt l off).toNat := by
  rcases Nat.lt_or_ge off l.length with h | h
  · rw [fieldAt, List.drop_eq_getElem_cons h, List.take_succ_cons, List.take_zero, beNat_cons, byteAt, List.getD,
      List.getElem?_eq_getElem h]
    simp
  · rw [fieldAt, List.drop_of_length_le h, byteAt_of_length_le h]
    rfl

/-- A field of bytes that read zero is zero. -/
theorem fieldAt_eq_zero {l : List Byte} {off len : Nat} (h : ∀ k, k < len → byteAt l (off + k) = 0#8) : fieldAt l off len = 0 := by
  have hall : ∀ x ∈ (l.drop off).take len, x = 0#8 := by
    intro x hx
    obtain ⟨k, hk, rfl⟩ := List.mem_iff_getElem.mp hx
    simp only [List.length_take, List.length_drop] at hk
    have := h k (by omega)
    simpa [byteAt, List.getD, show off + k < l.length by omega] using this
  rw [fieldAt, List.eq_replicate_of_mem hall, beNat_replicate_zero]

/-! ### Padding and areas -/

theorem padTo_length {n : Nat} {l : List Byte} (h : l.length ≤ n) : (padTo n l).length = n := by
  simp [padTo]
  omega

/-- The padding reads zero, and so does what is beyond it. -/
theorem byteAt_padTo (n : Nat) (l : List Byte) (k : Nat) : byteAt (padTo n l) k = byteAt l k := by
  unfold padTo
  rcases Nat.lt_or_ge k l.length with h | h
  · exact byteAt_append_left h _
  · rw [byteAt_append_right h, byteAt_replicate_zero, byteAt_of_length_le h]

theorem fieldAt_padTo_left {n off len : Nat} {l : List Byte} (h : off + len ≤ l.length) :
    fieldAt (padTo n l) off len = fieldAt l off len := fieldAt_append_left h _

/-! ### What an area made of bytes reads -/

theorem Memory.read_ofBytes (l : List Byte) (k : Nat) :
    Memory.read (Memory.ofBytes l) k = if k < Config.areaSize then byteAt l k else 0#8 := by
  have h := Memory.read_writeBytes (m := []) rfl 0 l k
  rw [Memory.ofBytes, h]
  simp only [Nat.zero_le, Nat.zero_add, true_and, Nat.sub_zero, Memory.read, Memory.unlisted]
  by_cases hk : k < l.length
  · simp [hk, byteAt]
  · simp [hk, byteAt_of_length_le (Nat.le_of_not_lt hk)]

theorem Memory.bytes_length (m : Memory) (off len : Nat) : (Memory.bytes m off len).length = len := by simp [Memory.bytes]

theorem byteAt_bytes (m : Memory) (off len k : Nat) :
    byteAt (Memory.bytes m off len) k = if k < len then Memory.read m (off + k) else 0#8 := byteAt_map_range

end Sys2Proof.Machine
end

section
/-! PROOF. The window on the SPI port: its writes and its reads (R192, R193, R200, R201, R203). -/

namespace Sys2Proof.Machine

/-! ### The head of the notice queue (R192) -/

theorem mostUrgent_eq_some {queue : List Notice} {n : Notice} (hn : n ∈ queue)
    (hrank : ∀ m ∈ queue, m.noticeClass.rank ≤ n.noticeClass.rank) : mostUrgent queue = some n.noticeClass := by
  have hpresent : queue.any (fun m => m.noticeClass = n.noticeClass) = true := List.any_eq_true.mpr ⟨n, hn, by simp⟩
  have habsent : ∀ c : NoticeClass, n.noticeClass.rank < c.rank → queue.any (fun m => m.noticeClass = c) = false := by
    intro c hc
    refine List.any_eq_false.mpr fun m hm => ?_
    rw [decide_eq_true_eq]
    intro he
    have := hrank m hm
    rw [he] at this
    omega
  unfold mostUrgent
  cases hclass : n.noticeClass with
  | urgent => rw [hclass] at hpresent; simp [hpresent]
  | routine =>
    rw [hclass] at hpresent habsent
    simp [hpresent, habsent .urgent (by decide)]
  | info =>
    rw [hclass] at hpresent habsent
    simp [hpresent, habsent .urgent (by decide), habsent .routine (by decide)]

theorem Nq.HeadIs.mostUrgent {q : Nq} {before after : List Notice} {n : Notice} (h : q.HeadIs before n after) :
    mostUrgent q.queue = some n.noticeClass :=
  mostUrgent_eq_some (by rw [h.1]; simp) h.2.1

theorem Nq.HeadIs.window {q : Nq} {before after : List Notice} {n : Notice} (h : q.HeadIs before n after) :
    q.window = n.record := by
  have hnot : ∀ m ∈ before, ¬ (decide (m.noticeClass = n.noticeClass)) = true := fun m hm => by simpa using h.2.2 m hm
  have hhead : q.head = some n := by
    unfold Nq.head
    rw [h.mostUrgent]
    show q.queue.find? _ = some n
    rw [h.1, List.find?_append, List.find?_eq_none.mpr hnot]
    simp
  rw [Nq.window, hhead]

theorem Nq.HeadIs.dropHead {q : Nq} {before after : List Notice} {n : Notice} (h : q.HeadIs before n after) :
    q.dropHead = { q with queue := before ++ after } := by
  have hnot : ∀ m ∈ before, ¬ (decide (m.noticeClass = n.noticeClass)) = true := fun m hm => by simpa using h.2.2 m hm
  unfold Nq.dropHead
  rw [h.mostUrgent]
  show { q with queue := q.queue.eraseP _ } = _
  rw [h.1, List.eraseP_append_right _ hnot]
  simp

theorem Nq.window_of_empty {q : Nq} (h : q.queue = []) : q.window = List.replicate Config.noticeRecordSize 0#8 := by
  simp [Nq.window, Nq.head, h, mostUrgent]

theorem Nq.dropHead_of_empty {q : Nq} (h : q.queue = []) : q.dropHead = q := by
  simp [Nq.dropHead, h, mostUrgent]

@[simp] theorem halfBytes_length (h : Half) : (halfBytes h).length = 2 := beBytes_length 2 _

theorem WakeCause.bytes_length (c : WakeCause) : c.bytes.length = 5 := by
  cases c <;> simp [WakeCause.bytes]

theorem Detail.bytes_length (d : Detail) : d.bytes.length ≤ 8 := by
  cases d with
  | cause c => simp [Detail.bytes, WakeCause.bytes_length]
  | _ => simp [Detail.bytes]

/-- Table 12-8: a notice record has sixteen bytes. -/
@[simp] theorem Notice.record_length (n : Notice) : n.record.length = 16 := by
  simp only [Notice.record, List.length_append, List.length_cons, List.length_nil, halfBytes_length,
    padTo_length n.detail.bytes_length]
  cases n.subject <;> simp

theorem Nq.window_length (q : Nq) : q.window.length = 16 := by
  unfold Nq.window
  split
  · exact Notice.record_length _
  · simp [Config.noticeRecordSize]

/-! ### Write transactions -/

theorem exec_write_whole {s : State} (h : s.PortIdle) (addr : Half) (data : List Byte) :
    exec (.registerWrite (.whole addr) data) s = .next (s.writeEvent addr data).drivePins := by
  show settle (s.beginTransaction.writeEvent addr data) = _
  rw [State.beginTransaction_of_idle h]
  rfl

theorem exec_write_start {s : State} (h : s.PortIdle) (addr : Half) (data : List Byte) :
    exec (.registerWrite (.start addr) data) s = .next (s.holdTransaction (.write addr data)).drivePins := by
  show settle (s.beginTransaction.holdTransaction _) = _
  rw [State.beginTransaction_of_idle h]
  rfl

theorem State.writeEvent_registers (s : State) {addr : Half} (data : List Byte) (h : addr.toNat % 1024 < 0x100) :
    s.writeEvent addr data = s.writeRegisters (writtenAt (addr.toNat % 1024) data) := if_pos h

theorem State.writeEvent_commandArea (s : State) {addr : Half} (data : List Byte) (hlow : 0x100 ≤ addr.toNat % 1024)
    (hhigh : addr.toNat % 1024 < 0x200) : s.writeEvent addr data = { s with mport := { s.mport with
      commandArea := Memory.writeBytes s.mport.commandArea (addr.toNat % 1024 - 0x100) data } } := by
  rw [State.writeEvent, windowAddress, if_neg (by omega), if_pos hhigh]

theorem State.writeEvent_elsewhere (s : State) {addr : Half} (data : List Byte) (h : 0x200 ≤ addr.toNat % 1024) :
    s.writeEvent addr data = s := by
  rw [State.writeEvent, windowAddress, if_neg (by omega), if_neg (by omega)]

/-- R200: a transaction in two parts does what it does in one. -/
theorem exec_write_finish {s u : State} (h : s.PortIdle) {addr : Half} {data : List Byte} (more : List Byte)
    (hu : exec (.registerWrite (.start addr) data) s = .next u) :
    exec (.registerWrite .finish more) u = exec (.registerWrite (.whole addr) (data ++ more)) s := by
  rw [exec_write_start h] at hu
  cases hu
  rw [exec_write_whole h]
  show settle (State.raiseNcs _ more) = _
  rw [State.raiseNcs_write (addr := addr) (data := data) rfl]
  obtain ⟨hspi, -⟩ := h
  have hback : ({ (s.holdTransaction (.write addr data)).drivePins with
      mport := { (s.holdTransaction (.write addr data)).drivePins.mport with spi := none } } : State) =
      s.withPinsOf (s.holdTransaction (.write addr data)).drivePins := by
    have hport : s.mport = { s.mport with spi := none } := by rw [← hspi]
    simp only [State.withPinsOf, State.drivePins, State.holdTransaction]
    rw [← hport]
  rw [hback]
  exact settle_of_pins (s.writeEvent_pins _ addr (data ++ more))

/-- R201: a finish with no write in progress writes nothing. -/
theorem exec_write_finish_of_none {s : State} (h : ∀ addr data, s.mport.spi ≠ some (.write addr data)) (more : List Byte) :
    exec (.registerWrite .finish more) s = .next s.drivePins := by
  show execRegisterWrite .finish more s = _
  unfold execRegisterWrite
  cases hspi : s.mport.spi with
  | none => rfl
  | some x =>
    cases x with
    | read => rfl
    | write addr data => exact absurd hspi (h addr data)

/-! ### Read transactions -/

theorem State.readWindow_length (s : State) (addr : Half) (n : Nat) : (s.readWindow addr n).length = n := by
  simp [State.readWindow]

/-- What byte `k` of a read from `a` is, in a block whose first address is `base`. -/
theorem State.readWindow_getElem? {s : State} (h : s.PortIdle) {addr : Half} {n k a : Nat} {b : Byte} (hk : k < n)
    (ha : a = addr.toNat % 1024) {base : Nat} {block : List Byte} (hblock : s.blockAt a = (base, block))
    (hb : (s.readWindow addr n)[k]? = some b) : b = byteAt block (a - base + k) := by
  subst ha
  rw [State.readWindow, State.beginTransaction_of_idle h] at hb
  simp only [windowAddress, hblock, List.getElem?_map, List.getElem?_range hk, Option.map_some, Option.some.injEq] at hb
  exact hb.symm

theorem State.blockAt_registers (s : State) {a : Nat} (h : a < 0x100) :
    s.blockAt a = (0, (List.range 256).map s.registerByte) := if_pos h

theorem State.blockAt_commandArea (s : State) {a : Nat} (hlow : 0x100 ≤ a) (hhigh : a < 0x200) :
    s.blockAt a = (0x100, Memory.bytes s.mport.commandArea 0 256) := by
  rw [State.blockAt, if_neg (by omega), if_pos hhigh]

theorem State.blockAt_resultArea (s : State) {a : Nat} (hlow : 0x200 ≤ a) (hhigh : a < 0x300) :
    s.blockAt a = (0x200, Memory.bytes s.cmde.resultArea 0 256) := by
  rw [State.blockAt, if_neg (by omega), if_neg (by omega), if_pos hhigh]

theorem State.blockAt_peek (s : State) {a : Nat} (hlow : 0x300 ≤ a) (hhigh : a < 0x310) :
    s.blockAt a = (0x300, s.nq.window) := by
  rw [State.blockAt, if_neg (by omega), if_neg (by omega), if_neg (by omega), if_pos hhigh]

theorem State.blockAt_take (s : State) {a : Nat} (hlow : 0x310 ≤ a) (hhigh : a < 0x320) :
    s.blockAt a = (0x310, s.nq.window) := by
  rw [State.blockAt, if_neg (by omega), if_neg (by omega), if_neg (by omega), if_neg (by omega), if_pos hhigh]

theorem State.blockAt_nothing (s : State) {a : Nat} (h : 0x320 ≤ a) : s.blockAt a = (a, []) := by
  rw [State.blockAt, if_neg (by omega), if_neg (by omega), if_neg (by omega), if_neg (by omega), if_neg (by omega)]

/-! ### The register block (Table 12-2) -/

theorem State.registerByte_ident (s : State) {r : Nat} (h : r < 4) : s.registerByte r = byteAt Config.identBytes r := if_pos h

/-- CONTROL as it reads (R202). -/
theorem State.controlByte_eq (s : State) : s.controlByte =
    (if s.mport.run = true then 0x01#8 else 0#8) ||| (if s.mport.intEnable = true then 0x04#8 else 0#8) := by
  unfold State.controlByte
  cases s.mport.run <;> cases s.mport.intEnable <;> rfl

/-- STATUS byte 0 as it reads: BUSY, the mode and the link state. -/
theorem State.statusByte0_eq (s : State) : s.statusByte0 =
    (if s.cmde.engine = .idle then 0#8 else 0x01#8) ||| (match s.steer.mode with
      | .stopped => 0x00#8
      | .starting => 0x02#8
      | .running => 0x04#8
      | .stopping => 0x06#8) ||| (match s.steer.link with
      | .idle => 0x00#8
      | .up => 0x08#8
      | .down => 0x10#8) := by
  have hbusy : bitAt s.cmde.engine.isBusy 0 = if s.cmde.engine = .idle then 0 else 1 := by
    cases s.cmde.engine <;> simp [Engine.isBusy, bitAt]
  rw [State.statusByte0, hbusy]
  by_cases hidle : s.cmde.engine = .idle
  · simp only [hidle, if_true]
    cases s.steer.mode <;> cases s.steer.link <;> rfl
  · simp only [hidle, if_false]
    cases s.steer.mode <;> cases s.steer.link <;> rfl

/-- STATUS byte 1 as it reads: the four sticky flags. -/
theorem State.statusByte1_eq (s : State) : s.statusByte1 =
    (if s.cmde.overrun = true then 0x01#8 else 0#8) ||| (if s.nq.overrun = true then 0x02#8 else 0#8) |||
      (if s.mport.configRefused = true then 0x04#8 else 0#8) ||| (if s.mport.nameWriteRefused = true then 0x08#8 else 0#8) := by
  simp only [State.statusByte1, State.sticky]
  cases s.cmde.overrun <;> cases s.nq.overrun <;> cases s.mport.configRefused <;> cases s.mport.nameWriteRefused <;> rfl

/-- The seven one-byte fields of the configuration, in the order of their registers. -/
def Settings.tail (c : Settings) : List Byte :=
  [c.wakeInterval, c.wakeAttemptLimit, c.steerAckTimeout, c.steerRetryLimit, c.noticeTrigger, c.noticeHoldoff,
   c.noticeClassMask.setWidth 8]

theorem Settings.bytes_eq (c : Settings) : c.bytes =
    beBytes 6 c.partAddress.toNat ++ (beBytes 2 c.queryType.toNat ++ (beBytes 2 c.announceType.toNat ++ c.tail)) := by
  simp [Settings.bytes, Settings.tail]

theorem Settings.byteAt_partAddress (c : Settings) {j : Nat} (h : j < 6) :
    byteAt c.bytes j = BitVec.ofNat 8 (c.partAddress.toNat / 256 ^ (5 - j)) := by
  rw [Settings.bytes_eq, byteAt_append_left (by simpa using h), byteAt_beBytes _ h]

theorem Settings.byteAt_queryType (c : Settings) {j : Nat} (h : j < 2) :
    byteAt c.bytes (6 + j) = BitVec.ofNat 8 (c.queryType.toNat / 256 ^ (1 - j)) := by
  rw [Settings.bytes_eq, byteAt_append_right (by simp), byteAt_append_left (by simp; omega), beBytes_length,
    Nat.add_sub_cancel_left, byteAt_beBytes _ h]

theorem Settings.byteAt_announceType (c : Settings) {j : Nat} (h : j < 2) :
    byteAt c.bytes (8 + j) = BitVec.ofNat 8 (c.announceType.toNat / 256 ^ (1 - j)) := by
  rw [Settings.bytes_eq, byteAt_append_right (by simp; omega), byteAt_append_right (by simp; omega), byteAt_append_left (by simp; omega),
    beBytes_length, beBytes_length, show 8 + j - 6 - 2 = j by omega, byteAt_beBytes _ h]

theorem Settings.byteAt_tail (c : Settings) (j : Nat) : byteAt c.bytes (10 + j) = byteAt c.tail j := by
  rw [Settings.bytes_eq, byteAt_append_right (by simp; omega), byteAt_append_right (by simp; omega),
    byteAt_append_right (by simp; omega), beBytes_length, beBytes_length, beBytes_length, show 10 + j - 6 - 2 - 2 = j by omega]

theorem State.registerByte_settings (s : State) {r : Nat} (h : 0x010 ≤ r) :
    s.registerByte r = byteAt s.mport.settings.bytes (r - 0x010) := by
  rw [State.registerByte, if_neg (by omega), if_neg (by omega), if_neg (by omega), if_neg (by omega), if_pos h]

/-- A register that is none of Table 12-2's reads zero. -/
theorem State.registerByte_reserved (s : State) {r : Nat}
    (h : 0x005 ≤ r ∧ r < 0x008 ∨ 0x00A ≤ r ∧ r < 0x010 ∨ 0x021 ≤ r) : s.registerByte r = 0#8 := by
  by_cases hr : 0x010 ≤ r
  · rw [State.registerByte_settings s hr, show r - 0x010 = 10 + (r - 0x01A) by omega, Settings.byteAt_tail,
      byteAt_of_length_le (by simp [Settings.tail]; omega)]
  · rw [State.registerByte, if_neg (by omega), if_neg (by omega), if_neg (by omega), if_neg (by omega), if_neg hr]

/-- A read of the register block: the register's byte, and zero beyond the block's end. -/
theorem State.registers_read {s : State} (h : s.PortIdle) {addr : Half} {n k a : Nat} {b : Byte} (hk : k < n)
    (ha : a = addr.toNat % 1024) (hb : (s.readWindow addr n)[k]? = some b) (hlow : a < 0x100) : b = s.registerByte (a + k) := by
  rw [State.readWindow_getElem? h hk ha (s.blockAt_registers hlow) hb, byteAt_map_range, Nat.sub_zero]
  split
  · rfl
  · rw [State.registerByte_reserved s (by omega)]

theorem State.area_read {s : State} (h : s.PortIdle) {addr : Half} {n k a base : Nat} {b : Byte} {m : Memory} (hk : k < n)
    (ha : a = addr.toNat % 1024) (hb : (s.readWindow addr n)[k]? = some b) (hlow : base ≤ a)
    (hblock : s.blockAt a = (base, Memory.bytes m 0 256)) :
    b = if a + k < base + 256 then Memory.read m (a + k - base) else 0#8 := by
  rw [State.readWindow_getElem? h hk ha hblock hb, byteAt_bytes, Nat.zero_add, show a - base + k = a + k - base by omega]
  exact if_congr (by omega) rfl rfl

theorem State.notice_read {s : State} (h : s.PortIdle) {addr : Half} {n k a base : Nat} {b : Byte} (hk : k < n)
    (ha : a = addr.toNat % 1024) (hb : (s.readWindow addr n)[k]? = some b) (hlow : base ≤ a)
    (hblock : s.blockAt a = (base, s.nq.window)) :
    b = if a + k < base + 16 then byteAt s.nq.window (a + k - base) else 0#8 := by
  rw [State.readWindow_getElem? h hk ha hblock hb, show a - base + k = a + k - base by omega]
  split
  · rfl
  · exact byteAt_of_length_le (by rw [Nq.window_length]; omega)

/-! ### MISO (Table 12-1) -/

theorem State.miso_low (s : State) (mosi : List Byte) (k : Nat) : s.miso false mosi k = s.misoDuring mosi k := rfl

theorem State.miso_zero (s : State) {mosi : List Byte} {k : Nat}
    (h : k < 3 ∨ mosi.length < 3 ∨ byteAt mosi 0 ≠ 0x01#8 ∧ byteAt mosi 0 ≠ 0x02#8) : s.miso false mosi k = .driven 0x00#8 := by
  rw [State.miso_low, State.misoDuring]
  by_cases hk : k < 3
  · exact if_pos hk
  · have hignored : meaningOfBytes mosi = .ignored := by
      unfold meaningOfBytes
      split
      · next instruction high low data =>
        obtain ⟨hne1, hne2⟩ := (h.resolve_left hk).resolve_left (by simp)
        rw [byteAt_cons_zero] at hne1 hne2
        rw [if_neg hne1, if_neg hne2]
      · rfl
    rw [if_neg hk, hignored]

theorem State.miso_read (s : State) (high low : Byte) (rest : List Byte) (k : Nat) :
    s.miso false (0x02#8 :: high :: low :: rest) 3 = .driven 0x00#8 ∧
      (4 ≤ k → s.miso false (0x02#8 :: high :: low :: rest) k =
        .driven ((s.readWindow (high ++ low) (k - 3)).getD (k - 4) 0#8)) := by
  have hmeaning : meaningOfBytes (0x02#8 :: high :: low :: rest) = .read (high ++ low) := by simp [meaningOfBytes]
  refine ⟨?_, fun hk => ?_⟩
  · rw [State.miso_low, State.misoDuring, hmeaning]
    rfl
  · rw [State.miso_low, State.misoDuring, hmeaning, if_neg (by omega)]
    show (if k = 3 then _ else _) = _
    rw [if_neg (by omega)]
    rfl

/-- Settles O5: each block by the one equation of its write and of its read. -/
theorem windowWritesAndReads : Obligations.WindowWritesAndReads := by
  unfold Obligations.WindowWritesAndReads
  refine ⟨⟨fun s addr data h hlow hhigh hwf => ?area, fun s addr data h helse => ?elsewhere, fun s addr data more h => ?start,
    fun s more h => ?finish⟩, fun s addr n => s.readWindow_length addr n, fun s addr n k a b h hk ha hb => ?reads,
    fun s a addr n hspi hissued ha => ?reset, fun s mosi k => ⟨rfl, s.miso_zero, fun high low rest hmosi => ?miso⟩⟩
  case area =>
    refine ⟨_, exec_write_whole h addr data, fun k hk => ?_, ?_⟩
    · rw [s.writeEvent_commandArea data hlow hhigh]
      show Memory.read (Memory.writeBytes s.mport.commandArea _ data) k = _
      rw [Memory.read_writeBytes hwf, show 0x100 + k - addr.toNat % 1024 = k - (addr.toNat % 1024 - 0x100) by omega]
      exact if_congr (by simp only [Config.areaSize]; omega) rfl rfl
    · rw [s.writeEvent_commandArea data hlow hhigh]
      rfl
  case elsewhere =>
    refine ⟨_, exec_write_whole h addr data, ?_⟩
    rw [s.writeEvent_elsewhere data helse]
    rfl
  case start => exact ⟨_, exec_write_start h addr data, rfl, rfl, exec_write_finish h more (exec_write_start h addr data)⟩
  case finish => exact ⟨_, exec_write_finish_of_none h more, rfl⟩
  case reads =>
    refine ⟨fun hlow => ?registers, fun hlow hhigh => s.area_read h hk ha hb hlow (s.blockAt_commandArea hlow hhigh),
      fun hlow hhigh => s.area_read h hk ha hb hlow (s.blockAt_resultArea hlow hhigh), fun hlow hhigh hempty => ?empty,
      fun before m after hhead => ⟨fun hlow hhigh => ?peek, fun hlow hhigh => ?take⟩, fun hlow => ?nothing⟩
    case registers =>
      rw [State.registers_read h hk ha hb hlow]
      have htail : ∀ j, a + k = 0x01A + j → s.registerByte (a + k) = byteAt s.mport.settings.tail j := fun j hj => by
        rw [s.registerByte_settings (by omega), show a + k - 0x010 = 10 + j by omega, Settings.byteAt_tail]
      refine ⟨fun he => ?_, fun he => ?_, fun he => ?_, fun he => ?_, fun he => ?_, fun he => ?_, fun j hj he => ?_,
        fun j hj he => ?_, fun j hj he => ?_, htail 0, htail 1, htail 2, htail 3, htail 4, htail 5, htail 6,
        s.registerByte_reserved⟩
      · rw [he]; rfl
      · rw [he]; rfl
      · rcases he with he | he <;> rw [he] <;> rfl
      · rw [he]; exact s.controlByte_eq
      · rw [he]; exact s.statusByte0_eq
      · rw [he]; exact s.statusByte1_eq
      · rw [s.registerByte_settings (by omega), show a + k - 0x010 = j by omega, Settings.byteAt_partAddress _ hj]
      · rw [s.registerByte_settings (by omega), show a + k - 0x010 = 6 + j by omega, Settings.byteAt_queryType _ hj]
      · rw [s.registerByte_settings (by omega), show a + k - 0x010 = 8 + j by omega, Settings.byteAt_announceType _ hj]
    case empty =>
      by_cases hpeek : a < 0x310
      · rw [State.notice_read h hk ha hb hlow (s.blockAt_peek hlow hpeek), Nq.window_of_empty hempty, byteAt_replicate_zero, ite_self]
      · rw [State.notice_read h hk ha hb (by omega) (s.blockAt_take (by omega) hhigh), Nq.window_of_empty hempty,
          byteAt_replicate_zero, ite_self]
    case peek => rw [State.notice_read h hk ha hb hlow (s.blockAt_peek hlow hhigh), hhead.window]
    case take => rw [State.notice_read h hk ha hb hlow (s.blockAt_take hlow hhigh), hhead.window]
    case nothing => rw [State.readWindow_getElem? h hk ha (s.blockAt_nothing hlow) hb, byteAt_nil]
  case reset =>
    rw [exec_softReset (Or.inr hissued)] at ha
    cases ha
    rw [State.readWindow, State.readWindow, State.beginTransaction_of_softReset hspi hissued,
      State.beginTransaction_of_idle (s := s.softReset.drivePins) ⟨rfl, List.not_mem_nil⟩]
    rfl
  case miso =>
    subst hmosi
    exact s.miso_read high low rest k

end Sys2Proof.Machine
end

section
/-! PROOF. The register block: CONTROL, STATUS, the configuration fields, the recognition values (R165, R198, R201 to R205). -/

namespace Sys2Proof.Machine

/-! ### What a transaction writes -/

theorem writtenAt_one (start : Nat) (b : Byte) (r : Nat) : writtenAt start [b] r = if r = start then some b else none := by
  unfold writtenAt
  rcases Nat.lt_trichotomy r start with h | h | h
  · rw [if_neg (by omega), if_neg (by omega)]
  · subst h; simp
  · rw [if_pos (by omega), if_neg (by omega), List.getElem?_eq_none (by simp; omega)]

theorem writtenAt_below {start r : Nat} (h : r < start) (data : List Byte) : writtenAt start data r = none :=
  if_neg (by omega)

theorem writtenAt_beyond {start r : Nat} {data : List Byte} (h : start + data.length ≤ r) : writtenAt start data r = none := by
  unfold writtenAt
  rw [if_pos (by omega), List.getElem?_eq_none (by omega)]

theorem writtenAt_within {start r : Nat} {data : List Byte} (hlow : start ≤ r) (hhigh : r < start + data.length) :
    writtenAt start data r = some (data.getD (r - start) 0#8) := by
  have hr : r - start < data.length := by omega
  rw [writtenAt, if_pos hlow]
  simp [List.getD, hr]

theorem writtenAt_append_left {start r : Nat} {data : List Byte} (h : r < start + data.length) (more : List Byte) :
    writtenAt start (data ++ more) r = writtenAt start data r := by
  unfold writtenAt
  split
  · exact List.getElem?_append_left (by omega)
  · rfl

theorem writtenAt_append_right {start r : Nat} {data : List Byte} (h : start + data.length ≤ r) (more : List Byte) :
    writtenAt start (data ++ more) r = writtenAt (start + data.length) more r := by
  rw [writtenAt, writtenAt, if_pos (by omega), if_pos h, List.getElem?_append_right (by omega), Nat.sub_sub]

/-! ### The fields of the configuration -/

theorem touches_eq_true {w : Nat → Option Byte} {base len : Nat} : touches w base len = true ↔ ∃ k, k < len ∧ (w (base + k)).isSome = true := by
  simp [touches]

theorem touches_congr {w w' : Nat → Option Byte} {base len : Nat} (h : ∀ k, k < len → w (base + k) = w' (base + k)) :
    touches w base len = touches w' base len := by
  rw [Bool.eq_iff_iff, touches_eq_true, touches_eq_true]
  exact exists_congr fun k => and_congr_right fun hk => by rw [h k hk]

theorem mergeField_congr {w w' : Nat → Option Byte} {base len : Nat} (h : ∀ k, k < len → w (base + k) = w' (base + k)) (old : Nat) :
    mergeField w base len old = mergeField w' base len old := by
  unfold mergeField
  congr 1
  refine List.map_congr_left fun k hk => ?_
  rw [h k (List.mem_range.mp hk)]

/-- R205: a write of the recognition values by its bytes alone. -/
theorem State.writeRecognition_congr (s : State) {w w' : Nat → Option Byte} (h : ∀ r, 0x010 ≤ r → r < 0x01A → w r = w' r) :
    s.writeRecognition w = s.writeRecognition w' := by
  have htouch : ∀ len, len ≤ 10 → touches w 0x010 len = touches w' 0x010 len := fun len hlen =>
    touches_congr fun k hk => h _ (by omega) (by omega)
  have hfield : ∀ base len old, 0x010 ≤ base → base + len ≤ 0x01A → mergeField w base len old = mergeField w' base len old :=
    fun base len old hlow hhigh => mergeField_congr (fun k hk => h _ (by omega) (by omega)) old
  simp only [State.writeRecognition, State.takeRecognition, htouch 10 (by omega), htouch 6 (by omega),
    hfield 0x010 6 _ (by omega) (by omega), hfield 0x016 2 _ (by omega) (by omega), hfield 0x018 2 _ (by omega) (by omega)]

theorem State.writeRecognition_of_none (s : State) {w : Nat → Option Byte} (h : ∀ r, 0x010 ≤ r → r < 0x01A → w r = none) :
    s.writeRecognition w = s := by
  have htouch : touches w 0x010 10 = false := by
    rw [Bool.eq_false_iff, Ne, touches_eq_true]
    rintro ⟨k, hk, hw⟩
    rw [h _ (by omega) (by omega)] at hw
    cases hw
  rw [State.writeRecognition, htouch]
  rfl

/-- The fields after the recognition values, with the register of each, in the order of their registers. -/
def fieldWriters : List (Nat × (State → Byte → State)) :=
  [(0x01A, fun s b => s.writeTiming .wakeInterval b), (0x01B, fun s b => s.writeTiming .wakeAttemptLimit b),
   (0x01C, fun s b => s.writeTiming .steerAckTimeout b), (0x01D, fun s b => s.writeTiming .steerRetryLimit b),
   (0x01E, fun s b => s.writeNotice .noticeTrigger b), (0x01F, fun s b => s.writeNotice .noticeHoldoff b),
   (0x020, fun s b => s.writeNotice .noticeClassMask b)]

/-- The fields of `writers` that a transaction writes, one after another. -/
def State.writeEach (s : State) (w : Nat → Option Byte) (writers : List (Nat × (State → Byte → State))) : State :=
  writers.foldl (fun t x => whenWritten (w x.1) t x.2) s

theorem State.writeFields_eq (s : State) (w : Nat → Option Byte) :
    s.writeFields w = (s.writeRecognition w).writeEach w fieldWriters := rfl

theorem State.writeEach_cons (s : State) (w : Nat → Option Byte) (x : Nat × (State → Byte → State))
    (writers : List (Nat × (State → Byte → State))) :
    s.writeEach w (x :: writers) = (whenWritten (w x.1) s x.2).writeEach w writers := rfl

theorem State.writeEach_congr (s : State) {w w' : Nat → Option Byte} {writers : List (Nat × (State → Byte → State))}
    (h : ∀ x ∈ writers, w x.1 = w' x.1) : s.writeEach w writers = s.writeEach w' writers := by
  induction writers generalizing s with
  | nil => rfl
  | cons x writers ih =>
    rw [State.writeEach_cons, State.writeEach_cons, h x List.mem_cons_self]
    exact ih _ fun y hy => h y (List.mem_cons_of_mem x hy)

theorem State.writeEach_of_none (s : State) {w : Nat → Option Byte} {writers : List (Nat × (State → Byte → State))}
    (h : ∀ x ∈ writers, w x.1 = none) : s.writeEach w writers = s := by
  induction writers generalizing s with
  | nil => rfl
  | cons x writers ih =>
    rw [State.writeEach_cons, h x List.mem_cons_self]
    exact ih s fun y hy => h y (List.mem_cons_of_mem x hy)

/-- The fields below a register written by one transaction and those from it on by another are written as by a
transaction of both. -/
theorem State.writeEach_split (s : State) {w below above : Nat → Option Byte} {m : Nat}
    (hlow : ∀ r, r < m → w r = below r) (hhigh : ∀ r, m ≤ r → w r = above r) (hbelow : ∀ r, m ≤ r → below r = none)
    (habove : ∀ r, r < m → above r = none) {writers : List (Nat × (State → Byte → State))}
    (hsorted : writers.Pairwise fun x y => x.1 ≤ y.1) :
    (s.writeEach below writers).writeEach above writers = s.writeEach w writers := by
  induction writers generalizing s with
  | nil => rfl
  | cons x writers ih =>
    obtain ⟨hfirst, hrest⟩ := List.pairwise_cons.mp hsorted
    by_cases hx : x.1 < m
    · have hcomm : ∀ t : State, State.writeEach t above (x :: writers) = t.writeEach above writers := fun t => by
        rw [State.writeEach_cons, habove _ hx]
        rfl
      rw [hcomm, State.writeEach_cons, State.writeEach_cons, hlow _ hx]
      exact ih _ hrest
    · have hall : ∀ y ∈ x :: writers, m ≤ y.1 := fun y hy => by
        rcases List.mem_cons.mp hy with rfl | hy
        · omega
        · have := hfirst y hy; omega
      rw [State.writeEach_of_none s fun y hy => hbelow _ (hall y hy)]
      exact s.writeEach_congr fun y hy => (hhigh _ (hall y hy)).symm

theorem fieldWriters_sorted : fieldWriters.Pairwise fun x y => x.1 ≤ y.1 := by simp [fieldWriters]

theorem fieldWriters_registers : ∀ x ∈ fieldWriters, 0x01A ≤ x.1 ∧ x.1 < 0x021 := by simp [fieldWriters]

theorem State.writeFields_congr (s : State) {w w' : Nat → Option Byte} (h : ∀ r, 0x010 ≤ r → r < 0x021 → w r = w' r) :
    s.writeFields w = s.writeFields w' := by
  rw [State.writeFields_eq, State.writeFields_eq, s.writeRecognition_congr fun r hlow hhigh => h r hlow (by omega)]
  refine State.writeEach_congr _ fun x hx => ?_
  have := fieldWriters_registers x hx
  exact h _ (by omega) (by omega)

theorem State.writeFields_of_none (s : State) {w : Nat → Option Byte} (h : ∀ r, 0x010 ≤ r → r < 0x021 → w r = none) :
    s.writeFields w = s := by
  rw [State.writeFields_eq, s.writeRecognition_of_none fun r hlow hhigh => h r hlow (by omega)]
  refine s.writeEach_of_none fun x hx => ?_
  have := fieldWriters_registers x hx
  exact h _ (by omega) (by omega)

/-! ### CONTROL, STATUS and the events issued -/

/-- RUN, INT_ENABLE and the events issued replaced. -/
def State.withControl (s : State) (run intEnable : Bool) (issued : List PortEvent) : State :=
  { s with mport := { s.mport with run := run, intEnable := intEnable, issued := issued } }

theorem State.withControl_self (s : State) : s.withControl s.mport.run s.mport.intEnable s.mport.issued = s := rfl

theorem whenWritten_withControl (b : Option Byte) (s : State) (run intEnable : Bool) (issued : List PortEvent)
    {f : State → Byte → State}
    (hf : ∀ v x, f (v.withControl run intEnable issued) x = (f v x).withControl run intEnable issued) :
    whenWritten b (s.withControl run intEnable issued) f = (whenWritten b s f).withControl run intEnable issued := by
  cases b <;> simp [whenWritten, hf]

theorem State.writeTiming_withControl (s : State) (run intEnable : Bool) (issued : List PortEvent) (f : TimingField) (b : Byte) :
    (s.withControl run intEnable issued).writeTiming f b = (s.writeTiming f b).withControl run intEnable issued := by
  simp only [State.writeTiming]; split <;> rfl

theorem State.writeNotice_withControl (s : State) (run intEnable : Bool) (issued : List PortEvent) (f : NoticeField) (b : Byte) :
    (s.withControl run intEnable issued).writeNotice f b = (s.writeNotice f b).withControl run intEnable issued := by
  simp only [State.writeNotice]; split <;> rfl

theorem State.writeRecognition_withControl (s : State) (run intEnable : Bool) (issued : List PortEvent) (w : Nat → Option Byte) :
    (s.withControl run intEnable issued).writeRecognition w = (s.writeRecognition w).withControl run intEnable issued := by
  simp only [State.writeRecognition, State.takeRecognition,
    show (s.withControl run intEnable issued).steer = s.steer from rfl,
    show (s.withControl run intEnable issued).mport.settings = s.mport.settings from rfl,
    show ∀ a, (s.withControl run intEnable issued).refusesPartAddress a = s.refusesPartAddress a from fun _ => rfl]
  split
  · split
    · split
      · split <;> rfl
      · rfl
    · rfl
  · rfl

/-- The fields written and the control bits stored do not touch each other. -/
theorem State.writeFields_withControl (s : State) (run intEnable : Bool) (issued : List PortEvent) (w : Nat → Option Byte) :
    (s.withControl run intEnable issued).writeFields w = (s.writeFields w).withControl run intEnable issued := by
  simp only [State.writeFields, List.foldl, State.writeRecognition_withControl,
    whenWritten_withControl _ _ run intEnable issued (f := fun v b => v.writeTiming _ b) fun v b => v.writeTiming_withControl _ _ _ _ b,
    whenWritten_withControl _ _ run intEnable issued (f := fun v b => v.writeNotice _ b) fun v b => v.writeNotice_withControl _ _ _ _ b]

/-- R201, R202: what a write event in the register block leaves. -/
theorem State.writeRegisters_eq (s : State) (w : Nat → Option Byte) :
    s.writeRegisters w = (s.writeFields w).withControl (((w 0x004).map fun b => b.getLsbD 0).getD s.mport.run)
      (((w 0x004).map fun b => b.getLsbD 2).getD s.mport.intEnable) (s.mport.issued ++ portEvents s.mport.run w) := by
  have hcontrol : whenWritten (w 0x004) s State.storeControl = s.withControl (((w 0x004).map fun b => b.getLsbD 0).getD s.mport.run)
      (((w 0x004).map fun b => b.getLsbD 2).getD s.mport.intEnable) s.mport.issued := by
    cases w 0x004 <;> rfl
  rw [State.writeRegisters, hcontrol, State.writeFields_withControl]
  rfl

theorem portEvents_of_none {w : Nat → Option Byte} (hcontrol : w 0x004 = none) (hstatus : w 0x009 = none) (run : Bool) :
    portEvents run w = [] := by simp [portEvents, hcontrol, hstatus]

/-- A write that reaches neither CONTROL nor STATUS is that of its fields. -/
theorem State.writeRegisters_fields (s : State) {w : Nat → Option Byte} (hcontrol : w 0x004 = none) (hstatus : w 0x009 = none) :
    s.writeRegisters w = s.writeFields w := by
  rw [State.writeRegisters_eq, hcontrol, portEvents_of_none hcontrol hstatus, List.append_nil]
  exact (s.writeFields_withControl _ _ _ w).symm

/-- R202: the clears a byte of STATUS byte 1 calls for, one after another. -/
theorem statusEvents_eq (b : Byte) : statusEvents b =
    (if b.getLsbD 0 = true then [PortEvent.clear .cmdOverrun] else []) ++
      (if b.getLsbD 1 = true then [PortEvent.clear .noticeOverrun] else []) ++
      (if b.getLsbD 2 = true then [PortEvent.clear .configRefused] else []) ++
      (if b.getLsbD 3 = true then [PortEvent.clear .nameWriteRefused] else []) := by
  have hcons : ∀ (x : Nat × StickyFlag) (l : List (Nat × StickyFlag)),
      (x :: l).filterMap (fun x => if b.getLsbD x.1 then some (PortEvent.clear x.2) else none) =
        (if b.getLsbD x.1 = true then [PortEvent.clear x.2] else []) ++
          l.filterMap (fun x => if b.getLsbD x.1 then some (PortEvent.clear x.2) else none) := fun x l => by
    rw [List.filterMap_cons]
    cases b.getLsbD x.1 <;> rfl
  rw [statusEvents, hcons, hcons, hcons, hcons, List.filterMap_nil, List.append_nil, List.append_assoc, List.append_assoc]

/-- R202, R203: the events a byte of CONTROL calls for. -/
theorem controlEvents_eq (run : Bool) (b : Byte) : controlEvents run b =
    if b.getLsbD 7 = true then [.softReset]
    else (if b.getLsbD 0 = true ∧ run = false then [.runSet]
          else if b.getLsbD 0 = false ∧ run = true then [.runCleared] else []) ++ (if b.getLsbD 1 = true then [.go] else []) := by
  unfold controlEvents
  cases b.getLsbD 0 <;> cases run <;> simp

theorem windowAddress_ofNat {a : Nat} (h : a < 1024) : (BitVec.ofNat 16 a).toNat % 1024 = a := by
  rw [BitVec.toNat_ofNat]
  omega

theorem State.writeEvent_ofNat (s : State) {a : Nat} (h : a < 0x100) (data : List Byte) :
    s.writeEvent (BitVec.ofNat 16 a) data = s.writeRegisters (writtenAt a data) := by
  have ha := windowAddress_ofNat (a := a) (by omega)
  rw [s.writeEvent_registers data (by omega), ha]

/-- A write from 0x00A on reaches neither CONTROL nor STATUS. -/
theorem State.writeEvent_fields (s : State) {a : Nat} (hlow : 0x00A ≤ a) (hhigh : a < 0x100) (data : List Byte) :
    s.writeEvent (BitVec.ofNat 16 a) data = s.writeFields (writtenAt a data) := by
  rw [s.writeEvent_ofNat hhigh]
  exact s.writeRegisters_fields (writtenAt_below (by omega) data) (writtenAt_below (by omega) data)

/-- Settles O6: one write of the register block, by what it stores and what it issues. -/
theorem writeToControlAndStatus : Obligations.WriteToControlAndStatus := by
  unfold Obligations.WriteToControlAndStatus
  refine ⟨fun s addr b h haddr => ?control, fun s addr b h haddr => ?status, fun s addr b h haddr => ?readOnly,
    fun s control b5 b6 b7 b8 status rest h => ?together⟩
  case control =>
    have hw : s.writeEvent addr [b] = s.withControl (b.getLsbD 0) (b.getLsbD 2) (s.mport.issued ++ controlEvents s.mport.run b) := by
      rw [s.writeEvent_registers [b] (by omega), haddr, State.writeRegisters_eq,
        s.writeFields_of_none fun r hlow hhigh => by rw [writtenAt_one, if_neg (by omega)]]
      simp [writtenAt_one, portEvents]
    refine ⟨_, exec_write_whole h addr [b], ?_⟩
    rw [hw]
    refine ⟨rfl, rfl, ?_, rfl⟩
    rw [← controlEvents_eq]
    rfl
  case status =>
    have hw : s.writeEvent addr [b] = s.withControl s.mport.run s.mport.intEnable (s.mport.issued ++ statusEvents b) := by
      rw [s.writeEvent_registers [b] (by omega), haddr, State.writeRegisters_eq,
        s.writeFields_of_none fun r hlow hhigh => by rw [writtenAt_one, if_neg (by omega)]]
      simp [writtenAt_one, portEvents]
    refine ⟨_, exec_write_whole h addr [b], ?_⟩
    rw [hw]
    refine ⟨?_, rfl⟩
    rw [← statusEvents_eq]
    rfl
  case readOnly =>
    have hw : s.writeEvent addr [b] = s := by
      rw [s.writeEvent_registers [b] (by omega), State.writeRegisters_fields s
        (by rw [writtenAt_one, if_neg (by omega)]) (by rw [writtenAt_one, if_neg (by omega)])]
      exact s.writeFields_of_none fun r hlow hhigh => by rw [writtenAt_one, if_neg (by omega)]
    refine ⟨_, exec_write_whole h addr [b], ?_⟩
    rw [hw]
    rfl
  case together =>
    have hfields : s.writeFields (writtenAt 0x004 (control :: b5 :: b6 :: b7 :: b8 :: status :: rest)) =
        s.writeFields (writtenAt 0x00A rest) := s.writeFields_congr fun r hlow _ =>
      writtenAt_append_right (data := [control, b5, b6, b7, b8, status]) (by simp; omega) rest
    have ht : s.writeEvent 0x004#16 (control :: b5 :: b6 :: b7 :: b8 :: status :: rest) =
        (s.writeFields (writtenAt 0x00A rest)).withControl (control.getLsbD 0) (control.getLsbD 2)
          (s.mport.issued ++ (statusEvents status ++ controlEvents s.mport.run control)) := by
      rw [← hfields]
      exact s.writeRegisters_eq _
    have hu : s.writeEvent 0x00A#16 rest = s.writeFields (writtenAt 0x00A rest) :=
      s.writeEvent_fields (a := 0x00A) (by omega) (by omega) rest
    refine ⟨_, _, exec_write_whole h _ _, exec_write_whole h _ _, ?_⟩
    rw [ht, hu]
    refine ⟨rfl, rfl, ?_, rfl, fun _ => ⟨_, exec_softReset (Or.inl ?_), rfl⟩⟩
    · rw [← statusEvents_eq, ← controlEvents_eq]
      rfl
    · exact (s.writeFields_spi _).trans h.1

/-! ### One transaction of several fields (R201) -/

theorem State.writeFields_idle {s : State} (h : s.PortIdle) (w : Nat → Option Byte) : (s.writeFields w).PortIdle := by
  have hissued : (s.writeFields w).mport.issued = s.mport.issued := by
    have hcontrol := s.writeFields_withControl s.mport.run s.mport.intEnable s.mport.issued w
    rw [s.withControl_self] at hcontrol
    rw [hcontrol]
    rfl
  exact ⟨(s.writeFields_spi w).trans h.1, by rw [hissued]; exact h.2⟩

/-- Two transactions that write the registers from `a` on, the second from where the first ended, each field within
one of them, write what one transaction of both does. -/
theorem State.writeFields_split (s : State) {a : Nat} {data : List Byte} (hsplit : 0x01A ≤ a + data.length) (more : List Byte) :
    (s.writeFields (writtenAt a data)).writeFields (writtenAt (a + data.length) more) =
      s.writeFields (writtenAt a (data ++ more)) := by
  rw [State.writeFields_eq _ (writtenAt (a + data.length) more),
    State.writeRecognition_of_none _ fun r _ hhigh => writtenAt_below (by omega) more, State.writeFields_eq, State.writeFields_eq,
    s.writeRecognition_congr (w' := writtenAt a data) fun r _ hhigh => writtenAt_append_left (by omega) more]
  exact State.writeEach_split _ (fun r hr => writtenAt_append_left hr more) (fun r hr => writtenAt_append_right hr more)
    (fun r hr => writtenAt_beyond hr) (fun r hr => writtenAt_below hr more) fieldWriters_sorted

/-- A write of one field's byte is that field's alone. -/
theorem State.writeEvent_one (s : State) {a : Nat} (hlow : 0x01A ≤ a) (hhigh : a < 0x021) (b : Byte) :
    s.writeEvent (BitVec.ofNat 16 a) [b] = s.writeEach (writtenAt a [b]) fieldWriters := by
  rw [s.writeEvent_fields (by omega) (by omega), State.writeFields_eq,
    State.writeRecognition_of_none _ fun r _ hr => writtenAt_below (by omega) [b]]

/-- Settles O7: a row is the write event of its bytes, and two write events one after another write every field as one
does. -/
theorem fieldWriteIsItsRow : Obligations.FieldWriteIsItsRow := by
  unfold Obligations.FieldWriteIsItsRow
  refine ⟨fun s b => ?rows, fun s first bytes hlen => ?recognition, fun s t a data more hlow hsplit hhigh ht => ?several⟩
  case rows =>
    have hrow : ∀ a, 0x01A ≤ a → a < 0x021 → exec (.registerWrite (.whole (BitVec.ofNat 16 a)) [b]) s =
        settle (s.beginTransaction.writeEach (writtenAt a [b]) fieldWriters) := fun a hlow hhigh =>
      congrArg settle (s.beginTransaction.writeEvent_one hlow hhigh b)
    exact ⟨hrow 0x01A (by omega) (by omega), hrow 0x01B (by omega) (by omega), hrow 0x01C (by omega) (by omega),
      hrow 0x01D (by omega) (by omega), hrow 0x01E (by omega) (by omega), hrow 0x01F (by omega) (by omega),
      hrow 0x020 (by omega) (by omega)⟩
  case recognition =>
    show settle (s.beginTransaction.writeEvent _ bytes) = settle (s.beginTransaction.writeRecognition _)
    rw [State.writeEvent_fields _ (by omega) (by omega), State.writeFields_eq]
    refine congrArg settle (State.writeEach_of_none _ fun x hx => writtenAt_beyond ?_)
    have := fieldWriters_registers x hx
    omega
  case several =>
    have hbegin := s.beginTransaction_idle
    change settle (s.beginTransaction.writeEvent _ data) = _ at ht
    show _ = settle (s.beginTransaction.writeEvent _ (data ++ more))
    rw [State.writeEvent_fields _ hlow (by omega)] at ht ⊢
    rw [settle_next.mp ht]
    obtain ⟨u, hu⟩ := (s.beginTransaction.writeFields (writtenAt a data)).drivePins_eq
    have hidle : ((s.beginTransaction.writeFields (writtenAt a data)).withPinsOf u).PortIdle := State.writeFields_idle hbegin _
    rw [hu, exec_write_whole hidle]
    show settle _ = _
    rw [State.writeEvent_pins, settle_withPinsOf, State.writeEvent_fields _ (by omega) hhigh, State.writeFields_split _ hsplit]

/-! ### The rows that write one field -/

theorem exec_configurationWrite {s : State} (h : s.PortIdle) (f : TimingField) (b : Byte) :
    exec (.configurationWrite f b) s = .next (s.writeTiming f b).drivePins := by
  show settle (s.beginTransaction.writeTiming f b) = _
  rw [State.beginTransaction_of_idle h]
  rfl

theorem exec_noticeParameterWrite {s : State} (h : s.PortIdle) (f : NoticeField) (b : Byte) :
    exec (.noticeParameterWrite f b) s = .next (s.writeNotice f b).drivePins := by
  show settle (s.beginTransaction.writeNotice f b) = _
  rw [State.beginTransaction_of_idle h]
  rfl

theorem exec_intEnableWrite {s : State} (h : s.PortIdle) (v : Bool) :
    exec (.intEnableWrite v) s = .next ({ s with mport := { s.mport with intEnable := v } } : State).drivePins := by
  show settle { s.beginTransaction with mport := { s.beginTransaction.mport with intEnable := v } } = _
  rw [State.beginTransaction_of_idle h]
  rfl

theorem exec_recognitionValueWrite {s : State} (h : s.PortIdle) (first : Nat) (bytes : List Byte) :
    exec (.recognitionValueWrite first bytes) s = .next (s.writeRecognition (writtenAt (0x010 + first) bytes)).drivePins := by
  show settle (s.beginTransaction.writeRecognition _) = _
  rw [State.beginTransaction_of_idle h]
  rfl

theorem State.writeTiming_accepted (s : State) {f : TimingField} {b : Byte} (h : timingAccepts f b = true) :
    s.writeTiming f b = { s with mport := { s.mport with settings := s.mport.settings.setTiming f b } } := if_pos h

theorem State.writeTiming_refused (s : State) {f : TimingField} {b : Byte} (h : timingAccepts f b ≠ true) :
    s.writeTiming f b = s.refuseConfig := if_neg h

/-- Settles O8: a field in range is taken, another refused. -/
theorem configurationWriteResult : Obligations.ConfigurationWriteResult := by
  unfold Obligations.ConfigurationWriteResult
  refine ⟨fun s f b h => ⟨_, exec_configurationWrite h f b, ?_⟩, fun s f b h => ⟨_, exec_noticeParameterWrite h f b, ?_⟩,
    fun s v h => ⟨_, exec_intEnableWrite h v, rfl, rfl⟩⟩
  · have haccepts : timingAccepts f b = true ↔ (match f with
        | .wakeInterval => 1 ≤ b.toNat
        | .wakeAttemptLimit => 1 ≤ b.toNat ∧ b.toNat ≤ 15
        | .steerAckTimeout => 1 ≤ b.toNat
        | .steerRetryLimit => b.toNat ≤ 7) := by
      cases f <;> simp [timingAccepts]
    refine ⟨fun hin => ?_, fun hout => ?_, ?_⟩
    · rw [s.writeTiming_accepted (haccepts.mpr hin)]
      cases f <;> rfl
    · rw [s.writeTiming_refused (mt haccepts.mp hout)]
      rfl
    · unfold State.writeTiming
      split <;> rfl
  · cases f with
    | noticeTrigger =>
      unfold State.writeNotice
      by_cases hin : 1 ≤ b.toNat ∧ b.toNat ≤ 32
      · rw [if_pos (show noticeAccepts .noticeTrigger b = true by simpa [noticeAccepts] using hin)]
        exact ⟨rfl, (if_pos hin).symm⟩
      · rw [if_neg (show ¬ noticeAccepts .noticeTrigger b = true by simpa [noticeAccepts] using hin)]
        exact ⟨rfl, (if_neg hin).symm⟩
    | noticeHoldoff => exact ⟨rfl, rfl⟩
    | noticeClassMask => exact ⟨rfl, rfl⟩

/-! ### The recognition values (R205) -/

theorem State.refusesPartAddress_iff (s : State) (a : Address) :
    s.refusesPartAddress a = true ↔ a.getLsbD 40 = true ∨ ∃ i st, s.station i = some st ∧ st.address = a := by
  rw [State.refusesPartAddress, Bool.or_eq_true]
  refine or_congr Iff.rfl ⟨fun h => ?_, fun ⟨i, st, hst, ha⟩ => ?_⟩
  · by_contra hnone
    push Not at hnone
    rw [State.findAddress_eq_none hnone] at h
    cases h
  · by_contra hfound
    rw [Bool.not_eq_true, Option.isSome_eq_false_iff, Option.isNone_iff_eq_none] at hfound
    unfold State.findAddress at hfound
    have := List.findSome?_eq_none_iff.mp hfound i (List.mem_finRange i)
    simp [hst, ha] at this

/-- The byte of the recognition values at `k` after a write of `bytes` from `first` on: the one written, else the old. -/
theorem writtenAt_getD {first k : Nat} (bytes : List Byte) (old : Byte) :
    (writtenAt (0x010 + first) bytes (0x010 + k)).getD old =
      if first ≤ k ∧ k < first + bytes.length then bytes.getD (k - first) 0#8 else old := by
  split
  · next h =>
    rw [writtenAt_within (by omega) (by omega), show 0x010 + k - (0x010 + first) = k - first by omega]
    rfl
  · next h =>
    by_cases hlow : first ≤ k
    · rw [writtenAt_beyond (by omega)]; rfl
    · rw [writtenAt_below (by omega)]; rfl

/-- The ten bytes of the recognition values. -/
def Settings.recognition (c : Settings) : List Byte :=
  beBytes 6 c.partAddress.toNat ++ beBytes 2 c.queryType.toNat ++ beBytes 2 c.announceType.toNat

/-- R205: what the recognition values hold after a write of `bytes` from `first` on. -/
def Settings.recognitionAfter (c : Settings) (first : Nat) (bytes : List Byte) (k : Nat) : Byte :=
  if first ≤ k ∧ k < first + bytes.length then bytes.getD (k - first) 0#8 else c.recognition.getD k 0#8

theorem mergeField_partAddress (c : Settings) (first : Nat) (bytes : List Byte) :
    mergeField (writtenAt (0x010 + first) bytes) 0x010 6 c.partAddress.toNat =
      beNat ((List.range 6).map (c.recognitionAfter first bytes)) := by
  unfold mergeField
  congr 1
  refine List.map_congr_left fun k hk => ?_
  have hk6 : k < 6 := List.mem_range.mp hk
  have hold : (beBytes 6 c.partAddress.toNat).getD k 0#8 = c.recognition.getD k 0#8 := by
    show byteAt _ k = byteAt _ k
    rw [Settings.recognition, byteAt_append_left (by simp; omega), byteAt_append_left (by simp; omega)]
  rw [writtenAt_getD, hold, Settings.recognitionAfter]

theorem mergeField_queryType (c : Settings) (first : Nat) (bytes : List Byte) :
    mergeField (writtenAt (0x010 + first) bytes) 0x016 2 c.queryType.toNat =
      beNat ((List.range 2).map fun k => c.recognitionAfter first bytes (6 + k)) := by
  unfold mergeField
  congr 1
  refine List.map_congr_left fun k hk => ?_
  have hk2 : k < 2 := List.mem_range.mp hk
  have hold : (beBytes 2 c.queryType.toNat).getD k 0#8 = c.recognition.getD (6 + k) 0#8 := by
    show byteAt _ k = byteAt _ (6 + k)
    rw [Settings.recognition, byteAt_append_left (by simp; omega), byteAt_append_right (by simp), beBytes_length,
      Nat.add_sub_cancel_left]
  rw [show 0x016 + k = 0x010 + (6 + k) by omega, writtenAt_getD, hold, Settings.recognitionAfter]

theorem mergeField_announceType (c : Settings) (first : Nat) (bytes : List Byte) :
    mergeField (writtenAt (0x010 + first) bytes) 0x018 2 c.announceType.toNat =
      beNat ((List.range 2).map fun k => c.recognitionAfter first bytes (8 + k)) := by
  unfold mergeField
  congr 1
  refine List.map_congr_left fun k hk => ?_
  have hk2 : k < 2 := List.mem_range.mp hk
  have hold : (beBytes 2 c.announceType.toNat).getD k 0#8 = c.recognition.getD (8 + k) 0#8 := by
    show byteAt _ k = byteAt _ (8 + k)
    rw [Settings.recognition, byteAt_append_right (by simp), List.length_append, beBytes_length, beBytes_length,
      show 8 + k - (6 + 2) = k by omega]
  rw [show 0x018 + k = 0x010 + (8 + k) by omega, writtenAt_getD, hold, Settings.recognitionAfter]

/-- R205: the settings with the two types written. -/
def Settings.withTypes (c : Settings) (first : Nat) (bytes : List Byte) : Settings :=
  { c with queryType := BitVec.ofNat 16 (beNat ((List.range 2).map fun k => c.recognitionAfter first bytes (6 + k)))
           announceType := BitVec.ofNat 16 (beNat ((List.range 2).map fun k => c.recognitionAfter first bytes (8 + k))) }

/-- R205: PartAddress with the bytes written. -/
def Settings.partAddressAfter (c : Settings) (first : Nat) (bytes : List Byte) : Address :=
  BitVec.ofNat 48 (beNat ((List.range 6).map (c.recognitionAfter first bytes)))

/-- R205 in STOPPED, by whether PartAddress is among the bytes written. -/
theorem State.takeRecognition_eq (s : State) (first : Nat) (bytes : List Byte) :
    s.takeRecognition (writtenAt (0x010 + first) bytes) =
      if touches (writtenAt (0x010 + first) bytes) 0x010 6 then
        if s.refusesPartAddress (s.mport.settings.partAddressAfter first bytes) then
          { s with mport := { s.mport with settings := s.mport.settings.withTypes first bytes, configRefused := true } }
        else { s with mport := { s.mport with settings := { s.mport.settings.withTypes first bytes with
          partAddress := s.mport.settings.partAddressAfter first bytes } } }
      else { s with mport := { s.mport with settings := s.mport.settings.withTypes first bytes } } := by
  simp only [State.takeRecognition, mergeField_partAddress, mergeField_queryType, mergeField_announceType]
  rfl

theorem touches_recognition {first : Nat} {bytes : List Byte} (hpos : 0 < bytes.length) (len : Nat) :
    touches (writtenAt (0x010 + first) bytes) 0x010 len = decide (first < len) := by
  rw [Bool.eq_iff_iff, touches_eq_true, decide_eq_true_eq]
  constructor
  · rintro ⟨k, hk, hw⟩
    by_contra hge
    rw [writtenAt_below (by omega)] at hw
    cases hw
  · intro hlt
    exact ⟨first, hlt, by rw [writtenAt_within (Nat.le_refl _) (by omega)]; rfl⟩

theorem State.writeRecognition_eq (s : State) {first : Nat} {bytes : List Byte} (hpos : 0 < bytes.length) (hfirst : first < 10) :
    s.writeRecognition (writtenAt (0x010 + first) bytes) =
      if s.steer.mode = .stopped then s.takeRecognition (writtenAt (0x010 + first) bytes) else s.refuseName := by
  rw [State.writeRecognition, touches_recognition hpos, decide_eq_true hfirst]
  rfl

/-- Settles O9: by the mode, by the first byte written, by whether PartAddress is taken. -/
theorem recognitionWriteResult : Obligations.RecognitionWriteResult := by
  unfold Obligations.RecognitionWriteResult
  intro s first bytes h hpos hlen
  refine ⟨_, exec_recognitionValueWrite h first bytes, ?_⟩
  rw [s.writeRecognition_eq hpos (by omega)]
  refine ⟨?frame, fun hmode => ?outside, fun hmode => ?_⟩
  case frame =>
    split
    · rw [State.takeRecognition_eq]
      split
      · split <;> rfl
      · rfl
    · rfl
  case outside =>
    rw [if_neg hmode]
    rfl
  rw [if_pos hmode, State.takeRecognition_eq, touches_recognition hpos]
  intro c old now a typed
  have ha : s.mport.settings.partAddressAfter first bytes = a := rfl
  rw [ha]
  refine ⟨fun hfirst => ?_, fun hfirst hrefused => ?_, fun hfirst hgroup hnone => ?_⟩
  · rw [if_neg (by simp; omega)]
    rfl
  · rw [if_pos (by simpa using hfirst), if_pos ((s.refusesPartAddress_iff _).mpr hrefused)]
    rfl
  · have htaken : ¬ s.refusesPartAddress a = true := by
      rw [s.refusesPartAddress_iff]
      rintro (hg | ⟨i, st, hst, ha⟩)
      · exact absurd (hgroup.symm.trans hg) (by decide)
      · exact hnone i st hst ha
    rw [if_pos (by simpa using hfirst), if_neg htaken]
    rfl

end Sys2Proof.Machine
end

section
/-! PROOF. The sticky flags, the take window, GO and the change of RUN (R157, R158, R161, R167, R168, R192 to R195, R202). -/

namespace Sys2Proof.Machine

/-! ### The sticky flags -/

theorem State.clearSticky_sticky (s : State) (f g : StickyFlag) : (s.clearSticky f).sticky g = if g = f then false else s.sticky g := by
  cases f <;> cases g <;> rfl

theorem State.clearSticky_issued (s : State) (f : StickyFlag) : (s.clearSticky f).mport.issued = s.mport.issued := by
  cases f <;> rfl

/-- What the four flags are is all a clear can change. -/
theorem State.clearSticky_restored (s : State) (f : StickyFlag) :
    ({ s.clearSticky f with
        cmde := { (s.clearSticky f).cmde with overrun := s.cmde.overrun }
        nq := { (s.clearSticky f).nq with overrun := s.nq.overrun }
        mport := { (s.clearSticky f).mport with configRefused := s.mport.configRefused
                                                nameWriteRefused := s.mport.nameWriteRefused } } : State) = s := by
  cases f <;> rfl

theorem exec_clearRow_of {s : State} {f : StickyFlag} (h : s.PortIdle ∨ PortEvent.clear f ∈ s.mport.issued) :
    exec f.clearRow s = .next (s.takeClear f).drivePins := by
  rw [exec_clearRow, State.clearRow, State.unlessIssued_of (h.imp_right decide_eq_true)]
  rfl

/-- Settles O10: the row is the clear of its flag, with the event taken from the list. -/
theorem stickyFlagClears : Obligations.StickyFlagClears := by
  unfold Obligations.StickyFlagClears
  intro s f h
  refine ⟨_, Eq.trans ?row (exec_clearRow_of h), fun g => ?flags, ?issued, ?frame⟩
  case row => cases f <;> rfl
  case flags =>
    show (s.takeClear f).sticky g = _
    rw [State.takeClear, State.clearSticky_sticky]
    cases g <;> rfl
  case issued => exact State.clearSticky_issued _ f
  case frame =>
    have hframe := State.clearSticky_restored { s with mport := s.mport.takeIssued (.clear f) } f
    exact congrArg (fun u : State => ({ u with mport := { u.mport with issued := s.mport.issued } } : State).withPinsOf s) hframe

/-! ### The take window -/

theorem exec_take_whole {s : State} (h : s.PortIdle) (first : Nat) :
    exec (.take (.whole first)) s = .next (s.readTake first).drivePins := by
  show settle (s.beginTransaction.readTake first) = _
  rw [State.beginTransaction_of_idle h]
  rfl

theorem exec_take_start {s : State} (h : s.PortIdle) (first : Nat) :
    exec (.take (.start first)) s = .next ((s.readTake first).holdTransaction .read).drivePins := by
  show settle ((s.beginTransaction.readTake first).holdTransaction .read) = _
  rw [State.beginTransaction_of_idle h]
  rfl

theorem State.readTake_peek (s : State) {first : Nat} (h : first ≠ 0) :
    s.readTake first = { s with out := { s.out with capture := s.nq.window.drop first } } := if_neg h

theorem State.readTake_head (s : State) :
    s.readTake 0 = { s with nq := s.nq.dropHead, out := { s.out with capture := s.nq.window } } := if_pos rfl

theorem State.readTake_mport (s : State) (first : Nat) : (s.readTake first).mport = s.mport := by
  unfold State.readTake
  split <;> rfl

theorem State.readTake_of_empty (s : State) (first : Nat) (h : s.nq.queue = []) :
    s.readTake first = { s with out := { s.out with capture := List.replicate (16 - first) 0#8 } } := by
  have hdrop : (List.replicate Config.noticeRecordSize 0#8).drop first = List.replicate (16 - first) 0#8 := List.drop_replicate
  by_cases hfirst : first = 0
  · subst hfirst
    rw [State.readTake_head, Nq.window_of_empty h, Nq.dropHead_of_empty h]
    rfl
  · rw [s.readTake_peek hfirst, Nq.window_of_empty h, hdrop]

/-- The end of a read in two parts leaves what the read in one leaves. -/
theorem exec_take_finish {s u : State} (h : s.PortIdle) {first : Nat} (hu : exec (.take (.start first)) s = .next u) :
    exec (.take .finish) u = exec (.take (.whole first)) s := by
  rw [exec_take_start h] at hu
  cases hu
  rw [exec_take_whole h]
  have hspi : (s.readTake first).mport = { (s.readTake first).mport with spi := none } := by
    rw [State.readTake_mport, ← h.1]
  have hback : ({ (s.readTake first).drivePins with mport := { (s.readTake first).mport with spi := none } } : State).drivePins =
      (s.readTake first).drivePins := by
    rw [← hspi]
    rfl
  exact congrArg Host.Outcome.next hback

/-- Settles O11: the head is read and leaves the queue; every other read is a peek. -/
theorem takeReturnsTheHead : Obligations.TakeReturnsTheHead := by
  unfold Obligations.TakeReturnsTheHead
  refine ⟨fun s before after n h hhead => ⟨?take, fun k hpos _ => ?peek⟩, fun s k h hempty _ => ?empty, fun s k h => ?parts,
    fun s hspi => ?finish⟩
  case take =>
    refine ⟨_, exec_take_whole h 0, ?_⟩
    rw [State.readTake_head, hhead.dropHead, hhead.window]
    exact ⟨rfl, rfl, rfl⟩
  case peek =>
    refine ⟨_, exec_take_whole h k, ?_⟩
    rw [s.readTake_peek (by omega), hhead.window]
    exact ⟨rfl, rfl⟩
  case empty =>
    refine ⟨_, exec_take_whole h k, ?_⟩
    rw [s.readTake_of_empty k hempty]
    exact ⟨rfl, rfl⟩
  case parts =>
    exact ⟨_, _, exec_take_whole h k, exec_take_start h k, rfl, (exec_take_finish h (exec_take_start h k)).trans (exec_take_whole h k)⟩
  case finish =>
    refine ⟨s.drivePins, ?_, rfl⟩
    show execTake .finish s = _
    unfold execTake
    cases hp : s.mport.spi with
    | none => rfl
    | some x =>
      cases x with
      | read => exact absurd hp hspi
      | write addr data => rfl

/-! ### GO -/

theorem exec_go {s : State} (h : s.PortIdle ∨ PortEvent.go ∈ s.mport.issued) :
    exec .go s = .next (State.takeGo { s with mport := s.mport.takeIssued .go }).drivePins := by
  show settle (State.takeGo { s.unlessIssued (decide (PortEvent.go ∈ s.mport.issued)) with
    mport := (s.unlessIssued (decide (PortEvent.go ∈ s.mport.issued))).mport.takeIssued .go }) = _
  rw [State.unlessIssued_of (h.imp_right decide_eq_true)]
  rfl

/-- Settles O12: the engine is idle and latches, or busy and notes the overrun. -/
theorem goResult : Obligations.GoResult := by
  unfold Obligations.GoResult
  intro s h
  refine ⟨_, exec_go h, ?_⟩
  unfold State.takeGo
  cases hengine : s.cmde.engine with
  | idle => exact ⟨rfl, rfl, fun _ => rfl, fun hbusy => absurd rfl hbusy⟩
  | busy c p => exact ⟨rfl, rfl, nofun, fun _ => rfl⟩

/-! ### The change of RUN (R157, R158, R161) -/

/-- The change of RUN that a row takes: the next one issued, or the row's own. -/
def State.TakesRun (s : State) (e : PortEvent) (run : Bool) : Prop :=
  s.mport.nextRun = some e ∨ s.mport.nextRun = none ∧ s.mport.run = !run ∧ s.PortIdle

/-- MPORT once a change of RUN is taken. -/
def Mport.runTaken (m : Mport) (e : PortEvent) (run : Bool) : Mport :=
  if m.nextRun = some e then m.takeIssued e else { m with run := run }

theorem Mport.runTaken_issued {m : Mport} {e : PortEvent} (h : m.nextRun = some e) (run : Bool) : m.runTaken e run = m.takeIssued e :=
  if_pos h

theorem Mport.runTaken_own {m : Mport} (h : m.nextRun = none) (e : PortEvent) (run : Bool) : m.runTaken e run = { m with run := run } :=
  if_neg (by simp [h])

theorem exec_runSet {s : State} (h : s.TakesRun .runSet true) :
    exec .runSet s = .next (State.takeRunSet { s with mport := s.mport.runTaken .runSet true }).drivePins := by
  show settle (s.unlessIssued s.mport.nextRun.isSome).runSet = _
  rcases h with hnext | ⟨hnext, hrun, hidle⟩
  · rw [State.unlessIssued_of (Or.inr (by rw [hnext]; rfl)), State.runSet, hnext, Mport.runTaken_issued hnext]
    rfl
  · have hnot : ¬ s.mport.run = true := by simp [hrun]
    rw [State.unlessIssued_of (Or.inl hidle), State.runSet, hnext, Mport.runTaken_own hnext]
    show settle (if s.mport.run = true then s else _) = _
    rw [if_neg hnot]
    rfl

theorem exec_runCleared {s : State} (h : s.TakesRun .runCleared false) :
    exec .runCleared s = .next (State.takeRunCleared { s with mport := s.mport.runTaken .runCleared false }).drivePins := by
  show settle (s.unlessIssued s.mport.nextRun.isSome).runCleared = _
  rcases h with hnext | ⟨hnext, hrun, hidle⟩
  · rw [State.unlessIssued_of (Or.inr (by rw [hnext]; rfl)), State.runCleared, hnext, Mport.runTaken_issued hnext]
    rfl
  · have hyes : s.mport.run = true := by simp [hrun]
    rw [State.unlessIssued_of (Or.inl hidle), State.runCleared, hnext, Mport.runTaken_own hnext]
    show settle (if s.mport.run = true then _ else s) = _
    rw [if_pos hyes]
    rfl

theorem Mport.runTaken_settings (m : Mport) (e : PortEvent) (run : Bool) : (m.runTaken e run).settings = m.settings := by
  unfold Mport.runTaken
  split <;> rfl

theorem exec_deferredStart_taken {s : State} (hdeferred : s.steer.deferredStart = true) (hmode : s.steer.mode = .stopped)
    (hrun : s.mport.run = true) : exec .deferredStart s = .next s.startPart.drivePins := by
  show execDeferredStart s = _
  rw [execDeferredStart, if_pos ⟨hdeferred, hmode, hrun⟩]
  rfl

theorem exec_deferredStart_dropped {s : State} (hrun : s.mport.run = false) :
    exec .deferredStart s = .next ({ s with steer := { s.steer with deferredStart := false } } : State).drivePins := by
  show execDeferredStart s = _
  rw [execDeferredStart, if_neg (by simp [hrun])]
  rfl

/-- Settles O13: a change of RUN is stored, and the mode it finds says what else it does. -/
theorem runChangeResult : Obligations.RunChangeResult := by
  unfold Obligations.RunChangeResult
  refine ⟨⟨fun s h => ⟨_, exec_runSet h, ?set⟩, fun s hdeferred hmode hrun => ?deferred, fun s hrun => ?dropped⟩,
    fun s h hmode => ⟨_, exec_runCleared h, ?cleared⟩⟩
  case set =>
    unfold State.takeRunSet
    cases hmode : s.steer.mode with
    | stopped =>
      have hsettings := s.mport.runTaken_settings .runSet true
      refine ⟨fun hnext => Mport.runTaken_issued hnext true, fun hnext => Mport.runTaken_own hnext _ _,
        fun _ => ⟨?_, rfl⟩, fun hne => absurd rfl hne, rfl⟩
      rw [← hsettings]
      rfl
    | _ =>
      exact ⟨fun hnext => Mport.runTaken_issued hnext true, fun hnext => Mport.runTaken_own hnext _ _, nofun,
        fun _ => ⟨rfl, rfl⟩, rfl⟩
  case deferred => exact ⟨_, exec_deferredStart_taken hdeferred hmode hrun, rfl, rfl, rfl⟩
  case dropped => exact ⟨_, exec_deferredStart_dropped hrun, rfl, rfl⟩
  case cleared =>
    unfold State.takeRunCleared
    cases hm : s.steer.mode with
    | running => exact absurd hm hmode
    | starting =>
      exact ⟨fun hnext => Mport.runTaken_issued hnext false, fun hnext => Mport.runTaken_own hnext _ _, fun _ => ⟨rfl, rfl⟩,
        nofun, nofun, rfl⟩
    | stopped =>
      exact ⟨fun hnext => Mport.runTaken_issued hnext false, fun hnext => Mport.runTaken_own hnext _ _, nofun,
        fun _ => ⟨rfl, rfl⟩, nofun, rfl⟩
    | stopping =>
      exact ⟨fun hnext => Mport.runTaken_issued hnext false, fun hnext => Mport.runTaken_own hnext _ _, nofun, nofun,
        fun _ => ⟨rfl, rfl⟩, rfl⟩

end Sys2Proof.Machine
end

section
/-! PROOF. The stop: the teardown at every record and the purge of the emission queue (R44, R138, R160). -/

namespace Sys2Proof.Machine

/-! ### The teardown at one record -/

/-- R44: what a stop leaves of an enrolled record; none where the record becomes VACANT. -/
def Station.afterStop (st : Station) : Option Station :=
  match st.state with
  | .entering _ => some { st with state := .awake }
  | .asleep _ => some { st with state := .lapsed }
  | .waking _ _ => some { st with state := .lapsed }
  | .leaving .confirmed _ => some { st with state := .awake }
  | .leaving .exhausted _ => some { st with state := .lapsed }
  | .retiring => none
  | .awake => some st
  | .lapsed => some st

/-- Whether the record of a slot is RETIRING. -/
def State.retiresAt (s : State) (i : Slot) : Bool := decide ((s.station i).map (·.state) = some .retiring)

/-- Whether the record of a slot is WAKING. -/
def State.wakesAt (s : State) (i : Slot) : Bool := (s.station i).any fun st => st.wakingAddress.isSome

/-- Whether the vacancy of a slot's record takes this entry from the identifier map. -/
def State.unmapsAt (s : State) (i : Slot) (e : MapEntry) : Prop :=
  ∃ st, s.station i = some st ∧ st.state = .retiring ∧ st.segment = e.segment ∧ ∃ l ∈ st.identifiers, l.identifier = e.identifier

/-- R44: the four things the teardown does at a record: nothing, another state, the end of a waking, the vacancy. -/
inductive State.TearsDownAt (s : State) (i : Slot) : State → Prop
  | kept (hafter : (s.station i).bind Station.afterStop = s.station i) (hretires : s.retiresAt i = false)
      (hwakes : s.wakesAt i = false) (hheld : s.heldBy i = none) : TearsDownAt s i s
  | restated (st' : Station) (hafter : (s.station i).bind Station.afterStop = some st') (hretires : s.retiresAt i = false)
      (hwakes : s.wakesAt i = false) (hheld : s.heldBy i = none) : TearsDownAt s i (s.setStation i st')
  | woken (st' : Station) (held : Option (Fin 16)) (hafter : (s.station i).bind Station.afterStop = some st')
      (hretires : s.retiresAt i = false) (hwakes : s.wakesAt i = true) (hheld : s.heldBy i = held) :
      TearsDownAt s i (((s.cancelWaking i).discardHeld held).setStation i st')
  | vacated (st : Station) (hstation : s.station i = some st) (hstate : st.state = .retiring)
      (hafter : (s.station i).bind Station.afterStop = none) (hretires : s.retiresAt i = true) (hwakes : s.wakesAt i = false)
      (hheld : s.heldBy i = none) : TearsDownAt s i (s.vacate i st)

theorem State.retiresAt_of {s : State} {i : Slot} {st : Station} (h : s.station i = some st) :
    s.retiresAt i = decide (st.state = .retiring) := by simp [State.retiresAt, h]

theorem State.wakesAt_of {s : State} {i : Slot} {st : Station} (h : s.station i = some st) :
    s.wakesAt i = st.wakingAddress.isSome := by simp [State.wakesAt, h]

theorem State.heldBy_of {s : State} {i : Slot} {st : Station} (h : s.station i = some st) :
    s.heldBy i = st.state.heldFrame := by simp [State.heldBy, h]

theorem State.TearsDownAt.of_none {s : State} {i : Slot} (h : s.station i = none) : s.TearsDownAt i s :=
  .kept (by rw [h]; rfl) (by simp [State.retiresAt, h]) (by simp [State.wakesAt, h]) (by simp [State.heldBy, h])

theorem State.TearsDownAt.of_settled {s : State} {i : Slot} {st : Station} (h : s.station i = some st)
    (hq : st.state = .awake ∨ st.state = .lapsed) : s.TearsDownAt i s := by
  rcases hq with hq | hq <;>
  exact .kept (by simp [h, Station.afterStop, hq]) (by simp [State.retiresAt_of h, hq])
    (by simp [State.wakesAt_of h, Station.wakingAddress, hq]) (by simp [State.heldBy_of h, StationState.heldFrame, hq])

/-- A record in one of the states that the teardown ends with no other effect. -/
theorem State.TearsDownAt.of_restated {s : State} {i : Slot} {st : Station} {q : StationState} (h : s.station i = some st)
    (hafter : st.afterStop = some { st with state := q }) (hnot : st.state.notWaking) (hretires : st.state ≠ .retiring) :
    s.TearsDownAt i (s.setStationState i q) := by
  rw [State.setStationState_eq h]
  refine .restated _ (by rw [h]; exact hafter) (by simp [State.retiresAt_of h, hretires]) ?_ ?_
  · rw [State.wakesAt_of h]
    cases hst : st.state <;> simp_all [Station.wakingAddress, StationState.notWaking]
  · rw [State.heldBy_of h]
    cases hst : st.state <;> simp_all [StationState.heldFrame, StationState.notWaking]

theorem State.tearsDownAt (s : State) (i : Slot) : s.TearsDownAt i (s.teardownAt i) := by
  unfold State.teardownAt
  split
  · next h => exact .of_none h
  · next st h =>
    split
    · next o hq => exact .of_restated h (by rw [Station.afterStop, hq]) (by simp [hq]) (by simp [hq])
    · next l hq => exact .of_restated h (by rw [Station.afterStop, hq]) (by simp [hq]) (by simp [hq])
    · next cause held hq =>
      have hstation : ((s.cancelWaking i).discardHeld held).station i = some st := by
        rw [State.station_of_stab (s := s) (by simp), h]
      rw [State.setStationState_eq hstation]
      exact .woken _ held (by simp [h, Station.afterStop, hq]) (by simp [State.retiresAt_of h, hq])
        (by simp [State.wakesAt_of h, Station.wakingAddress, hq]) (by simp [State.heldBy_of h, StationState.heldFrame, hq])
    · next cause hq => exact .of_restated h (by rw [Station.afterStop, hq]) (by simp [hq]) (by simp [hq])
    · next cause hq => exact .of_restated h (by rw [Station.afterStop, hq]) (by simp [hq]) (by simp [hq])
    · next hq =>
      exact .vacated st h hq (by simp [h, Station.afterStop, hq]) (by simp [State.retiresAt_of h, hq])
        (by simp [State.wakesAt_of h, Station.wakingAddress, hq]) (by simp [State.heldBy_of h, StationState.heldFrame, hq])
    · next hq => exact .of_settled h (Or.inl hq)
    · next hq => exact .of_settled h (Or.inr hq)

section
variable {s u : State} {i : Slot}

theorem State.TearsDownAt.station (h : s.TearsDownAt i u) (j : Slot) :
    u.station j = if i = j then (s.station i).bind Station.afterStop else s.station j := by
  cases h with
  | kept hafter =>
    split
    · next hij => rw [← hij, hafter]
    · rfl
  | restated st' hafter => rw [State.setStation_station, hafter]
  | woken st' held hafter => rw [State.setStation_station, hafter, State.station_of_stab (s := s) (by simp)]
  | vacated st hstation hstate hafter => rw [State.vacate_station, hafter]

theorem State.TearsDownAt.generation (h : s.TearsDownAt i u) (j : Slot) :
    u.generation j = if i = j ∧ s.retiresAt i = true then s.generation j + 1#8 else s.generation j := by
  cases h with
  | kept hafter hretires => simp [hretires]
  | restated st' hafter hretires => simp [hretires]
  | woken st' held hafter hretires => simp [hretires, State.generation_of_stab (s := s)]
  | vacated st hstation hstate hafter hretires => simp [hretires, State.vacate_generation]

theorem State.TearsDownAt.wake (h : s.TearsDownAt i u) (j : Slot) :
    u.wake[j.val] = if i = j ∧ s.wakesAt i = true then none else s.wake[j.val] := by
  cases h with
  | kept hafter hretires hwakes => simp [hwakes]
  | restated st' hafter hretires hwakes => simp [hwakes]
  | woken st' held hafter hretires hwakes =>
    have hwake : (((s.cancelWaking i).discardHeld held).setStation i st').wake = tset s.wake i none := by cases held <;> rfl
    rw [hwake, tset_get]
    simp [hwakes]
  | vacated st hstation hstate hafter hretires hwakes => simp [hwakes]

theorem State.TearsDownAt.hold (h : s.TearsDownAt i u) (b : Fin 16) :
    u.hold[b.val] = if s.heldBy i = some b then .free else s.hold[b.val] := by
  cases h with
  | kept hafter hretires hwakes hheld => simp [hheld]
  | restated st' hafter hretires hwakes hheld => simp [hheld]
  | woken st' held hafter hretires hwakes hheld =>
    rw [hheld]
    cases held with
    | none => simp [State.discardHeld, State.cancelWaking]
    | some c =>
      show (tset s.hold c .free)[b.val] = _
      rw [tset_get]
      simp
  | vacated st hstation hstate hafter hretires hwakes hheld => simp [hheld]

theorem mem_removeMapped {idmap : List MapEntry} {segment : Segment} {listed : List ListedIdentifier} {e : MapEntry} :
    e ∈ removeMapped idmap segment listed ↔
      e ∈ idmap ∧ ¬ (e.segment = segment ∧ ∃ l ∈ listed, l.identifier = e.identifier) := by
  rw [removeMapped, List.mem_filter]
  refine and_congr_right fun _ => ?_
  simp only [Bool.not_eq_true', ← Bool.not_eq_true, Bool.and_eq_true, decide_eq_true_eq, List.any_eq_true]

theorem State.TearsDownAt.idmap (h : s.TearsDownAt i u) (e : MapEntry) : e ∈ u.idmap ↔ e ∈ s.idmap ∧ ¬ s.unmapsAt i e := by
  have hnone : s.retiresAt i = false → ¬ s.unmapsAt i e := by
    rintro hretires ⟨st, hst, hstate, -⟩
    simp [State.retiresAt, hst, hstate] at hretires
  cases h with
  | kept hafter hretires => simp [hnone hretires]
  | restated st' hafter hretires => simp [hnone hretires]
  | woken st' held hafter hretires => simp [hnone hretires]
  | vacated st hstation hstate =>
    rw [State.vacate_idmap, mem_removeMapped]
    refine and_congr_right fun _ => not_congr ?_
    rw [State.unmapsAt, hstation]
    simp [hstate, eq_comm]

theorem State.TearsDownAt.bodies (h : s.TearsDownAt i u) (n : RuleNumber) : u.rstore[n.val].body = s.rstore[n.val].body := by
  cases h with
  | kept => rfl
  | restated => simp
  | woken => simp
  | vacated st => rw [State.vacate_rstore, lowerCounts_body]

theorem State.TearsDownAt.nq (h : s.TearsDownAt i u) : u.nq = if s.retiresAt i = true then
    s.nq.post { kind := .stationRetired, subject := some (i, s.generation i), detail := .none } else s.nq := by
  cases h with
  | kept hafter hretires => simp [hretires]
  | restated st' hafter hretires => simp [hretires]
  | woken st' held hafter hretires => simp [hretires]
  | vacated st hstation hstate hafter hretires => rw [State.vacate_nq, if_pos hretires]

theorem State.TearsDownAt.rest (h : s.TearsDownAt i u) :
    u.resp = s.resp ∧ u.icls = s.icls ∧ u.emit = s.emit ∧ u.presented = s.presented ∧ u.cmde = s.cmde ∧ u.mport = s.mport ∧
      u.out = s.out := by
  cases h <;> simp

end

/-! ### The teardown of every record -/

/-- What the record of a slot says of the teardown, two states with the same record agree on. -/
theorem State.retiresAt_congr {s u : State} {i : Slot} (h : u.station i = s.station i) : u.retiresAt i = s.retiresAt i := by
  simp [State.retiresAt, h]

theorem State.wakesAt_congr {s u : State} {i : Slot} (h : u.station i = s.station i) : u.wakesAt i = s.wakesAt i := by
  simp [State.wakesAt, h]

theorem State.heldBy_congr {s u : State} {i : Slot} (h : u.station i = s.station i) : u.heldBy i = s.heldBy i := by
  simp [State.heldBy, h]

theorem State.unmapsAt_congr {s u : State} {i : Slot} (h : u.station i = s.station i) (e : MapEntry) :
    u.unmapsAt i e ↔ s.unmapsAt i e := by simp [State.unmapsAt, h]

/-- What the teardown of some slots leaves, each slot's part by the record it had. -/
structure State.TornDown (s : State) (slots : List Slot) (u : State) : Prop where
  station : ∀ j, u.station j = if j ∈ slots then (s.station j).bind Station.afterStop else s.station j
  generation : ∀ j, u.generation j = if j ∈ slots ∧ s.retiresAt j = true then s.generation j + 1#8 else s.generation j
  wake : ∀ j : Slot, u.wake[j.val] = if j ∈ slots ∧ s.wakesAt j = true then none else s.wake[j.val]
  hold : ∀ b : Fin 16, ((∃ i ∈ slots, s.heldBy i = some b) → u.hold[b.val] = .free) ∧
    ((¬ ∃ i ∈ slots, s.heldBy i = some b) → u.hold[b.val] = s.hold[b.val])
  idmap : ∀ e, e ∈ u.idmap ↔ e ∈ s.idmap ∧ ¬ ∃ i ∈ slots, s.unmapsAt i e
  bodies : ∀ n : RuleNumber, u.rstore[n.val].body = s.rstore[n.val].body
  nq : u.nq = (slots.filter s.retiresAt).foldl
    (fun q i => q.post { kind := .stationRetired, subject := some (i, s.generation i), detail := .none }) s.nq
  rest : u.resp = s.resp ∧ u.icls = s.icls ∧ u.emit = s.emit ∧ u.presented = s.presented ∧ u.cmde = s.cmde ∧
    u.mport = s.mport ∧ u.out = s.out

theorem State.TornDown.nil (s : State) : s.TornDown [] s where
  station := by simp
  generation := by simp
  wake := by simp
  hold := by simp
  idmap := by simp
  bodies _ := rfl
  nq := rfl
  rest := ⟨rfl, rfl, rfl, rfl, rfl, rfl, rfl⟩

/-- A record first, then records of other slots: each finds the record it had. -/
theorem State.TornDown.cons {s u v : State} {i : Slot} {slots : List Slot} (hi : i ∉ slots) (hfirst : s.TearsDownAt i u)
    (h : u.TornDown slots v) : s.TornDown (i :: slots) v := by
  have hsame : ∀ j ∈ slots, u.station j = s.station j := fun j hj => by
    rw [hfirst.station, if_neg (fun he : i = j => hi (he ▸ hj))]
  have hne : ∀ j ∈ slots, i ≠ j := fun j hj he => hi (he ▸ hj)
  refine ⟨fun j => ?_, fun j => ?_, fun j => ?_, fun b => ?_, fun e => ?_, fun n => (h.bodies n).trans (hfirst.bodies n), ?_, ?_⟩
  · by_cases hj : j ∈ slots
    · rw [h.station, if_pos hj, hsame j hj, if_pos (List.mem_cons_of_mem i hj)]
    · rw [h.station, if_neg hj, hfirst.station]
      by_cases hij : i = j
      · rw [if_pos hij, ← hij, if_pos List.mem_cons_self]
      · rw [if_neg hij, if_neg (by simp [hj, Ne.symm hij])]
  · by_cases hj : j ∈ slots
    · rw [h.generation, hfirst.generation, State.retiresAt_congr (hsame j hj)]
      simp [hj, hne j hj]
    · rw [h.generation, hfirst.generation, if_neg (fun hboth => hj hboth.1)]
      by_cases hij : i = j
      · subst hij; simp
      · simp [hij, hj, Ne.symm hij]
  · by_cases hj : j ∈ slots
    · rw [h.wake, hfirst.wake, State.wakesAt_congr (hsame j hj)]
      simp [hj, hne j hj]
    · rw [h.wake, hfirst.wake, if_neg (fun hboth => hj hboth.1)]
      by_cases hij : i = j
      · subst hij; simp
      · simp [hij, hj, Ne.symm hij]
  · have hheld : (∃ j ∈ slots, u.heldBy j = some b) ↔ ∃ j ∈ slots, s.heldBy j = some b :=
      exists_congr fun j => and_congr_right fun hj => by rw [State.heldBy_congr (hsame j hj)]
    obtain ⟨hfreed, hkept⟩ := h.hold b
    rw [hheld] at hfreed hkept
    have hone := hfirst.hold b
    constructor
    · rintro ⟨j, hj, hb⟩
      by_cases hlater : ∃ j ∈ slots, s.heldBy j = some b
      · exact hfreed hlater
      · rcases List.mem_cons.mp hj with rfl | hj
        · rw [hkept hlater, hone, if_pos hb]
        · exact absurd ⟨j, hj, hb⟩ hlater
    · intro hnone
      have hlater : ¬ ∃ j ∈ slots, s.heldBy j = some b := fun ⟨j, hj, hb⟩ => hnone ⟨j, List.mem_cons_of_mem i hj, hb⟩
      rw [hkept hlater, hone, if_neg fun hb => hnone ⟨i, List.mem_cons_self, hb⟩]
  · have hunmaps : (∃ j ∈ slots, u.unmapsAt j e) ↔ ∃ j ∈ slots, s.unmapsAt j e :=
      exists_congr fun j => and_congr_right fun hj => State.unmapsAt_congr (hsame j hj) e
    rw [h.idmap, hfirst.idmap, hunmaps, List.exists_mem_cons_iff, not_or, and_assoc]
  · have hfilter : slots.filter u.retiresAt = slots.filter s.retiresAt :=
      List.filter_congr fun j hj => State.retiresAt_congr (hsame j hj)
    have hposts : ∀ (q : Nq), (slots.filter s.retiresAt).foldl
        (fun q i => q.post { kind := .stationRetired, subject := some (i, u.generation i), detail := .none }) q =
        (slots.filter s.retiresAt).foldl
        (fun q i => q.post { kind := .stationRetired, subject := some (i, s.generation i), detail := .none }) q := fun q => by
      refine List.foldl_ext _ _ q fun q' j hj => ?_
      have hjslots := (List.mem_filter.mp hj).1
      rw [hfirst.generation, if_neg fun hboth => hne j hjslots hboth.1]
    rw [h.nq, hfilter, hposts, hfirst.nq]
    by_cases hretires : s.retiresAt i = true
    · rw [if_pos hretires, List.filter_cons_of_pos hretires, List.foldl_cons]
    · rw [if_neg hretires, List.filter_cons_of_neg hretires]
  · obtain ⟨hresp, hicls, hemit, hpresented, hcmde, hmport, hout⟩ := hfirst.rest
    rw [← hresp, ← hicls, ← hemit, ← hpresented, ← hcmde, ← hmport, ← hout]
    exact h.rest

theorem State.tornDown_slots {slots : List Slot} (hnodup : slots.Nodup) (s : State) :
    s.TornDown slots (slots.foldl State.teardownAt s) := by
  induction slots generalizing s with
  | nil => exact .nil s
  | cons i slots ih =>
    obtain ⟨hi, hrest⟩ := List.nodup_cons.mp hnodup
    exact .cons hi (s.tearsDownAt i) (ih hrest _)

theorem State.tornDown (s : State) : s.TornDown (List.finRange 64) s.teardown :=
  State.tornDown_slots (List.nodup_finRange 64) s

/-! ### The purge (R138) -/

theorem State.freeResources_buffers (s : State) (l : List Entry) (b : Fin 8) :
    ((∃ x ∈ l, x.kind = .answer b) → (s.freeResources l).resp.buffers[b.val] = none) ∧
      ((¬ ∃ x ∈ l, x.kind = .answer b) → (s.freeResources l).resp.buffers[b.val] = s.resp.buffers[b.val]) := by
  induction l generalizing s with
  | nil => simp [State.freeResources]
  | cons x l ih =>
    obtain ⟨hfreed, hkept⟩ := ih (s.freeResource x.kind)
    have hone : (s.freeResource x.kind).resp.buffers[b.val] = if x.kind = .answer b then none else s.resp.buffers[b.val] := by
      cases hx : x.kind <;> simp [State.freeResource, tset_get]
    rw [State.freeResources]
    by_cases hl : ∃ y ∈ l, y.kind = .answer b
    · exact ⟨fun _ => hfreed hl, fun hnone => absurd (hl.imp fun y hy => ⟨List.mem_cons_of_mem x hy.1, hy.2⟩) hnone⟩
    · rw [hkept hl, hone]
      by_cases hx : x.kind = .answer b <;> simp [hx, hl]

theorem State.freeResources_hold (s : State) (l : List Entry) (b : Fin 16) :
    ((∃ x ∈ l, x.kind = .held b) → (s.freeResources l).hold[b.val] = .free) ∧
      ((¬ ∃ x ∈ l, x.kind = .held b) → (s.freeResources l).hold[b.val] = s.hold[b.val]) := by
  induction l generalizing s with
  | nil => simp [State.freeResources]
  | cons x l ih =>
    obtain ⟨hfreed, hkept⟩ := ih (s.freeResource x.kind)
    have hone : (s.freeResource x.kind).hold[b.val] = if x.kind = .held b then .free else s.hold[b.val] := by
      cases hx : x.kind <;> simp [State.freeResource, tset_get]
    rw [State.freeResources]
    by_cases hl : ∃ y ∈ l, y.kind = .held b
    · exact ⟨fun _ => hfreed hl, fun hnone => absurd (hl.imp fun y hy => ⟨List.mem_cons_of_mem x hy.1, hy.2⟩) hnone⟩
    · rw [hkept hl, hone]
      by_cases hx : x.kind = .held b <;> simp [hx, hl]

theorem State.freeResources_slots (s : State) (l : List Entry) (j : Fin 4) :
    ((∃ x ∈ l, x.kind = .pass j) → (s.freeResources l).icls.slots[j.val] = .free) ∧
      ((¬ ∃ x ∈ l, x.kind = .pass j) → (s.freeResources l).icls.slots[j.val] = s.icls.slots[j.val]) := by
  induction l generalizing s with
  | nil => simp [State.freeResources]
  | cons x l ih =>
    obtain ⟨hfreed, hkept⟩ := ih (s.freeResource x.kind)
    have hone : (s.freeResource x.kind).icls.slots[j.val] = if x.kind = .pass j then .free else s.icls.slots[j.val] := by
      cases hx : x.kind <;> simp [State.freeResource, tset_get]
    rw [State.freeResources]
    by_cases hl : ∃ y ∈ l, y.kind = .pass j
    · exact ⟨fun _ => hfreed hl, fun hnone => absurd (hl.imp fun y hy => ⟨List.mem_cons_of_mem x hy.1, hy.2⟩) hnone⟩
    · rw [hkept hl, hone]
      by_cases hx : x.kind = .pass j <;> simp [hx, hl]

/-- What the resources of entries are no part of. -/
theorem State.freeResources_rest (s : State) (l : List Entry) :
    (s.freeResources l).resp.answerJobs = s.resp.answerJobs ∧ (s.freeResources l).resp.ackJobs = s.resp.ackJobs ∧
      (s.freeResources l).icls.arrivals = s.icls.arrivals ∧ (s.freeResources l).icls.current = s.icls.current := by
  induction l generalizing s with
  | nil => exact ⟨rfl, rfl, rfl, rfl⟩
  | cons x l ih =>
    have hone : (s.freeResource x.kind).resp.answerJobs = s.resp.answerJobs ∧ (s.freeResource x.kind).resp.ackJobs = s.resp.ackJobs ∧
        (s.freeResource x.kind).icls.arrivals = s.icls.arrivals ∧ (s.freeResource x.kind).icls.current = s.icls.current := by
      cases x.kind <;> simp [State.freeResource]
    obtain ⟨hanswer, hack, harrivals, hcurrent⟩ := hone
    rw [State.freeResources, ← hanswer, ← hack, ← harrivals, ← hcurrent]
    exact ih _

/-! ### The whole stop (R160) -/

/-- What the stop leaves of a record, by its state. -/
theorem Station.afterStop_cases (st : Station) :
    (st.state.settled = true → st.afterStop = some st) ∧ (st.state = .retiring → st.afterStop = none) ∧
      (((∃ o, st.state = .entering o) ∨ ∃ cause, st.state = .leaving .confirmed cause) →
        st.afterStop = some { st with state := .awake }) ∧
      (((∃ l, st.state = .asleep l) ∨ (∃ cause held, st.state = .waking cause held) ∨ ∃ cause, st.state = .leaving .exhausted cause) →
        st.afterStop = some { st with state := .lapsed }) := by
  unfold Station.afterStop
  cases hq : st.state with
  | leaving reason cause => cases reason <;> simp [StationState.settled]
  | _ => simp [StationState.settled]

theorem exec_runCleared_running {s : State} (h : s.TakesRun .runCleared false) (hmode : s.steer.mode = .running) :
    exec .runCleared s = .next (State.beginStop { s with mport := s.mport.runTaken .runCleared false }).drivePins := by
  rw [exec_runCleared h, State.takeRunCleared, show ({ s with mport := s.mport.runTaken .runCleared false } : State).steer.mode =
    .running from hmode]

theorem Mport.runTaken_rest (m : Mport) (e : PortEvent) (run : Bool) :
    (m.runTaken e run).commandArea = m.commandArea ∧ (m.runTaken e run).spi = m.spi := by
  unfold Mport.runTaken
  split <;> exact ⟨rfl, rfl⟩

theorem State.retiresAt_iff {s : State} {i : Slot} : s.retiresAt i = true ↔ ∃ st, s.station i = some st ∧ st.state = .retiring := by
  rw [State.retiresAt, decide_eq_true_eq, Option.map_eq_some_iff]

/-- What the teardown and the purge leave: every record by its state, and the resources of the entries purged. -/
structure State.Stopped (s v : State) : Prop where
  enrolled : ∀ i st, s.station i = some st → v.station i = st.afterStop
  vacant : ∀ i, s.station i = none → v.station i = none
  generation : ∀ i, v.generation i = if s.retiresAt i = true then s.generation i + 1#8 else s.generation i
  wake : ∀ i : Slot, v.wake[i.val] = if s.wakesAt i = true then none else s.wake[i.val]
  emit : v.emit = { s.emit with waiting := [] }
  buffers : ∀ b : Fin 8, ((∃ x ∈ s.emit.waiting, x.kind = .answer b) → v.resp.buffers[b.val] = none) ∧
    ((¬ ∃ x ∈ s.emit.waiting, x.kind = .answer b) → v.resp.buffers[b.val] = s.resp.buffers[b.val])
  hold : ∀ b : Fin 16, (((∃ x ∈ s.emit.waiting, x.kind = .held b) ∨ ∃ i, s.heldBy i = some b) → v.hold[b.val] = .free) ∧
    ((¬ ((∃ x ∈ s.emit.waiting, x.kind = .held b) ∨ ∃ i, s.heldBy i = some b)) → v.hold[b.val] = s.hold[b.val])
  slots : ∀ j : Fin 4, ((∃ x ∈ s.emit.waiting, x.kind = .pass j) → v.icls.slots[j.val] = .free) ∧
    ((¬ ∃ x ∈ s.emit.waiting, x.kind = .pass j) → v.icls.slots[j.val] = s.icls.slots[j.val])
  idmap : ∀ e, e ∈ v.idmap ↔ e ∈ s.idmap ∧ ¬ ∃ i, s.unmapsAt i e
  bodies : ∀ n : RuleNumber, v.rstore[n.val].body = s.rstore[n.val].body
  nq : v.nq = ((List.finRange 64).filter s.retiresAt).foldl
    (fun q i => q.post { kind := .stationRetired, subject := some (i, s.generation i), detail := .none }) s.nq
  jobs : v.resp.answerJobs = s.resp.answerJobs ∧ v.resp.ackJobs = s.resp.ackJobs ∧ v.icls.arrivals = s.icls.arrivals ∧
    v.icls.current = s.icls.current
  rest : v.presented = s.presented ∧ v.cmde = s.cmde ∧ v.mport = s.mport ∧ v.out = s.out

theorem State.stopped (s : State) : s.Stopped s.teardown.purge := by
  have h := s.tornDown
  generalize s.teardown = u at h
  obtain ⟨hresp, hicls, hemit, hpresented, hcmde, hmport, hout⟩ := h.rest
  have hstab : u.purge.stab = u.stab := by simp [State.purge]
  have hwaiting : u.emit.waiting = s.emit.waiting := by rw [hemit]
  have hpurge : u.purge = ({ u with emit := { u.emit with waiting := [] } } : State).freeResources s.emit.waiting := by
    rw [State.purge, hwaiting]
  have hjobs := State.freeResources_rest { u with emit := { u.emit with waiting := [] } } s.emit.waiting
  exact {
    enrolled := fun i st hst => by
      rw [State.station_of_stab hstab, h.station, if_pos (List.mem_finRange i), hst]
      rfl
    vacant := fun i hnone => by
      rw [State.station_of_stab hstab, h.station, if_pos (List.mem_finRange i), hnone]
      rfl
    generation := fun i => by
      rw [State.generation_of_stab hstab, h.generation]
      simp
    wake := fun i => by
      have hwake : u.purge.wake = u.wake := by simp [State.purge]
      simp only [hwake, h.wake, List.mem_finRange, true_and]
    emit := by simp [State.purge, hemit]
    buffers := fun b => by
      rw [hpurge, ← hresp]
      exact State.freeResources_buffers _ _ b
    hold := fun b => by
      obtain ⟨hfreed, hkept⟩ := State.freeResources_hold { u with emit := { u.emit with waiting := [] } } s.emit.waiting b
      have htorn := h.hold b
      simp only [List.mem_finRange, true_and] at htorn
      rw [hpurge]
      by_cases hentry : ∃ x ∈ s.emit.waiting, x.kind = .held b
      · exact ⟨fun _ => hfreed hentry, fun hnot => absurd (Or.inl hentry) hnot⟩
      · rw [hkept hentry]
        exact ⟨fun hor => htorn.1 (hor.resolve_left hentry), fun hnot => htorn.2 fun hheld => hnot (Or.inr hheld)⟩
    slots := fun j => by
      rw [hpurge, ← hicls]
      exact State.freeResources_slots _ _ j
    idmap := fun e => by
      have hidmap := h.idmap e
      simp only [List.mem_finRange, true_and] at hidmap
      rw [← hidmap]
      simp [State.purge]
    bodies := fun n => by
      rw [← h.bodies n]
      simp [State.purge]
    nq := by
      rw [← h.nq]
      simp [State.purge]
    jobs := by
      rw [hpurge, ← hresp, ← hicls]
      exact hjobs
    rest := by simp [State.purge, hpresented, hcmde, hmport, hout] }

theorem State.wakesAt_iff {s : State} {i : Slot} :
    s.wakesAt i = true ↔ ∃ st ∈ s.station i, st.wakingAddress.isSome = true := by simp [State.wakesAt, Option.any_eq_true]

/-- What is freed under a condition, and kept without it. -/
theorem eq_ite_of {α : Type} {p : Prop} [Decidable p] {x y z : α} (h : (p → x = y) ∧ (¬ p → x = z)) : x = if p then y else z := by
  split
  · next hp => exact h.1 hp
  · next hp => exact h.2 hp

/-- Settles O14: the teardown record by record, the purge entry by entry, the CLEAR_ALL after both. -/
theorem runClearedStops : Obligations.RunClearedStops := by
  unfold Obligations.RunClearedStops
  intro s h hmode
  refine ⟨_, exec_runCleared_running h hmode, ?_⟩
  have hsettings := s.mport.runTaken_settings .runCleared false
  obtain ⟨harea, hspi⟩ := s.mport.runTaken_rest .runCleared false
  generalize s.mport.runTaken .runCleared false = m at hsettings harea hspi ⊢
  have hstop := State.stopped { s with mport := m }
  rw [State.beginStop_eq]
  generalize ({ s with mport := m } : State).teardown.purge = v at hstop
  obtain ⟨hpresented, hcmde, hmport, hout⟩ := hstop.rest
  obtain ⟨hanswer, hack, harrivals, hcurrent⟩ := hstop.jobs
  have hretires : ∀ i, ({ s with mport := m } : State).retiresAt i = s.retiresAt i := fun _ => rfl
  refine ⟨?steer, ?out, fun i hnone => ⟨hstop.vacant i hnone, ?vacantGeneration⟩, fun i st hst => ?record, fun i => ?wake, hstop.emit,
    fun b => eq_ite_of (hstop.buffers b), fun b => eq_ite_of (hstop.hold b), fun j => eq_ite_of (hstop.slots j), fun e => ?idmap,
    hstop.bodies, hstop.nq, hanswer, hack, harrivals, hcurrent, hpresented, hcmde, ?settings, ?area, ?spi⟩
  case steer =>
    rw [← hsettings]
    rfl
  case out =>
    show v.out.beginMessage _ = _
    rw [hout]
  case vacantGeneration =>
    refine (hstop.generation i).trans (if_neg ?_)
    rw [hretires, State.retiresAt_iff]
    rintro ⟨st, hst, -⟩
    rw [hnone] at hst
    cases hst
  case record =>
    obtain ⟨hsettled, hretiring, hconfirmed, hlapsed⟩ := st.afterStop_cases
    have hstation : v.station i = st.afterStop := hstop.enrolled i st hst
    have hkept : st.state ≠ .retiring → v.generation i = s.generation i := fun hne =>
      (hstop.generation i).trans (if_neg (by rw [hretires, State.retiresAt_of hst]; simpa using hne))
    refine ⟨fun hq => ⟨hstation.trans (hsettled hq), hkept ?_⟩, fun hq => ⟨hstation.trans (hretiring hq), ?_⟩,
      fun hq => ⟨hstation.trans (hconfirmed hq), hkept ?_⟩, fun hq => ⟨hstation.trans (hlapsed hq), hkept ?_⟩⟩
    · intro he
      rw [he] at hq
      cases hq
    · exact (hstop.generation i).trans (if_pos (by rw [hretires, State.retiresAt_of hst]; simpa using hq))
    · rcases hq with ⟨o, hq⟩ | ⟨cause, hq⟩ <;> rw [hq] <;> nofun
    · rcases hq with ⟨l, hq⟩ | ⟨cause, held, hq⟩ | ⟨cause, hq⟩ <;> rw [hq] <;> nofun
  case wake => exact (hstop.wake i).trans (if_congr State.wakesAt_iff rfl rfl)
  case idmap => exact hstop.idmap e
  case settings =>
    show v.mport.settings = _
    rw [hmport, hsettings]
  case area =>
    show v.mport.commandArea = _
    rw [hmport, harea]
  case spi =>
    show v.mport.spi = _
    rw [hmport, hspi]

end Sys2Proof.Machine
end

section
/-! PROOF. The three steps of an execution and the handle of a command (R12, R169, R171). -/

namespace Sys2Proof.Machine

/-! ### What a command's event does not see -/

/-- CMDE and the two pins replaced: what the steps of an execution change around the event. -/
def State.withCmde (s : State) (m : Cmde) (u : State) : State :=
  { s with cmde := m, nint := u.nint, intakeReady := u.intakeReady }

/-- The event of a command does not see CMDE and the pins, and one that fails changes nothing (R169, R171). -/
structure Event.Sound (event : Event) : Prop where
  blind : ∀ s m u c, event (s.withCmde m u) c = ((event s c).1.withCmde m u, (event s c).2)
  refused : ∀ s c, 2 ≤ (event s c).2.code.number.toNat → (event s c).1 = s

/-- The part of an event that goes on at the enrolled record. -/
structure RecordEventSound (f : State → Slot → Station → State × Reply) : Prop where
  blind : ∀ s m u i st, f (s.withCmde m u) i st = ((f s i st).1.withCmde m u, (f s i st).2)
  refused : ∀ s i st, s.station i = some st → 2 ≤ (f s i st).2.code.number.toNat → (f s i st).1 = s

theorem withHandle_blind {f : State → Slot → Station → State × Reply} (h : RecordEventSound f) (s : State) (m : Cmde) (u : State)
    (c : Memory) : withHandle f (s.withCmde m u) c = ((withHandle f s c).1.withCmde m u, (withHandle f s c).2) := by
  unfold withHandle
  split
  · next hlt =>
    simp only [show ∀ i, (s.withCmde m u).generation i = s.generation i from fun _ => rfl,
      show ∀ i, (s.withCmde m u).station i = s.station i from fun _ => rfl]
    split
    · rfl
    · cases s.station ⟨slotByte c, hlt⟩ with
      | none => rfl
      | some st => exact h.blind s m u _ st
  · rfl

theorem withHandle_refused {f : State → Slot → Station → State × Reply} (h : RecordEventSound f) {s : State} {c : Memory}
    (hcode : 2 ≤ (withHandle f s c).2.code.number.toNat) : (withHandle f s c).1 = s := by
  unfold withHandle at hcode ⊢
  split
  · next hlt =>
    rw [dif_pos hlt] at hcode
    simp only [] at hcode ⊢
    split
    · rfl
    · next hg =>
      rw [if_neg hg] at hcode
      cases hst : s.station ⟨slotByte c, hlt⟩ with
      | none => rfl
      | some st =>
        rw [hst] at hcode
        exact h.refused s _ st hst hcode
  · rfl

theorem Event.Sound.withHandle {f : Memory → State → Slot → Station → State × Reply} (h : ∀ c, RecordEventSound (f c)) :
    Event.Sound fun s c => withHandle (f c) s c :=
  ⟨fun s m u c => withHandle_blind (h c) s m u c, fun _ c hcode => withHandle_refused (h c) hcode⟩

theorem guarded_blind {l l' : List (Bool × ResultCode)} {s t t' u : State} {m : Cmde} {r : Reply} (hl : l' = l)
    (ht : t' = t.withCmde m u) :
    guarded l' (s.withCmde m u) (t', r) = ((guarded l s (t, r)).1.withCmde m u, (guarded l s (t, r)).2) := by
  subst hl ht
  unfold guarded
  split <;> rfl

theorem guarded_refused {l : List (Bool × ResultCode)} {s : State} {t : State}
    (hcode : 2 ≤ (guarded l s (t, reply .ok)).2.code.number.toNat) : (guarded l s (t, reply .ok)).1 = s := by
  unfold guarded at hcode ⊢
  cases hfailed : firstFailed l with
  | none =>
    rw [hfailed] at hcode
    exact absurd hcode (by decide : ¬ 2 ≤ (0#8).toNat)
  | some code => rfl

theorem withRule_blind {f g : RuleNumber → State × Reply} {n : Nat} {s : State} {m : Cmde} {u : State}
    (h : ∀ k, g k = ((f k).1.withCmde m u, (f k).2)) :
    withRule n (s.withCmde m u) g = ((withRule n s f).1.withCmde m u, (withRule n s f).2) := by
  unfold withRule
  split
  · exact h _
  · rfl

theorem withRule_refused {f : RuleNumber → State × Reply} {n : Nat} {s : State}
    (h : ∀ k, 2 ≤ (f k).2.code.number.toNat → (f k).1 = s) (hcode : 2 ≤ (withRule n s f).2.code.number.toNat) :
    (withRule n s f).1 = s := by
  unfold withRule at hcode ⊢
  split
  · next hlt => rw [dif_pos hlt] at hcode; exact h _ hcode
  · rfl

/-! ### The events of the eighteen rows -/

theorem createEvent_sound : Event.Sound createEvent where
  blind s m u c := by
    unfold createEvent
    simp only [show (s.withCmde m u).mport = s.mport from rfl, show (s.withCmde m u).stab = s.stab from rfl,
      show ∀ a, (s.withCmde m u).findAddress a = s.findAddress a from fun _ => rfl]
    split
    · rfl
    · split
      · rfl
      · cases lowest (fun r => r.station.isNone) s.stab <;> rfl
  refused s c hcode := by
    unfold createEvent at hcode ⊢
    split
    · rfl
    · next hown =>
      rw [if_neg hown] at hcode
      split
      · rfl
      · next hfound =>
        rw [if_neg hfound] at hcode
        cases hlow : lowest (fun r => r.station.isNone) s.stab with
        | none => rfl
        | some i =>
          rw [hlow] at hcode
          exact absurd hcode (by decide : ¬ 2 ≤ (0#8).toNat)

theorem setTemplateEvent_sound : Event.Sound setTemplateEvent :=
  .withHandle fun _ => ⟨fun _ _ _ _ _ => guarded_blind rfl rfl, fun _ _ _ _ hcode => guarded_refused hcode⟩

theorem clearTemplateEvent_sound : Event.Sound clearTemplateEvent :=
  .withHandle fun _ => ⟨fun _ _ _ _ _ => guarded_blind rfl rfl, fun _ _ _ _ hcode => guarded_refused hcode⟩

theorem addIdentifierEvent_sound : Event.Sound addIdentifierEvent :=
  .withHandle fun _ => ⟨fun _ _ _ _ _ => guarded_blind rfl rfl, fun _ _ _ _ hcode => guarded_refused hcode⟩

theorem removeIdentifierEvent_sound : Event.Sound removeIdentifierEvent :=
  .withHandle fun _ => ⟨fun _ _ _ _ _ => guarded_blind rfl rfl, fun _ _ _ _ hcode => guarded_refused hcode⟩

theorem attachRuleEvent_sound : Event.Sound attachRuleEvent :=
  .withHandle fun _ => ⟨fun _ _ _ _ _ => withRule_blind fun _ => guarded_blind rfl rfl,
    fun _ _ _ _ => withRule_refused fun _ => guarded_refused⟩

theorem detachRuleEvent_sound : Event.Sound detachRuleEvent :=
  .withHandle fun _ => ⟨fun _ _ _ _ _ => withRule_blind fun _ => guarded_blind rfl rfl,
    fun _ _ _ _ => withRule_refused fun _ => guarded_refused⟩

theorem readEvent_sound : Event.Sound readEvent := .withHandle fun _ => ⟨fun _ _ _ _ _ => rfl, fun _ _ _ _ _ => rfl⟩

/-- A code that stands for a completed event. -/
theorem not_two_le_of_done {code : ResultCode} (h : code = .ok ∨ code = .pending) : ¬ 2 ≤ code.number.toNat := by
  rcases h with rfl | rfl <;> decide

theorem State.setStationState_withCmde (s : State) (m : Cmde) (u : State) (i : Slot) (q : StationState) :
    (s.withCmde m u).setStationState i q = (s.setStationState i q).withCmde m u := by
  unfold State.setStationState State.updateStation
  rw [show (s.withCmde m u).station i = s.station i from rfl]
  cases s.station i <;> rfl

theorem State.enterSleep_withCmde (s : State) (m : Cmde) (u : State) (i : Slot) (st : Station) (o : SleepOrigin) :
    (s.withCmde m u).enterSleep i st o = (s.enterSleep i st o).withCmde m u := by
  unfold State.enterSleep
  rw [State.setStationState_withCmde]
  rfl

/-- A refusal, or the DIVERT placed. -/
theorem State.sleepCommanded_asks {s : State} {i : Slot} {st : Station} {lease : Half} (h : st.state = .awake ∨ st.state = .lapsed) :
    s.sleepCommanded i st lease = match s.sleepCheck st with
      | some refusal => (s, refusal.asResult)
      | none => (s.enterSleep i st (.commanded lease), .pending) := by
  unfold State.sleepCommanded
  rcases h with h | h <;> simp only [h] <;> rfl

theorem State.sleepCommanded_blind (s : State) (m : Cmde) (u : State) (i : Slot) (st : Station) (lease : Half) :
    (s.withCmde m u).sleepCommanded i st lease = ((s.sleepCommanded i st lease).1.withCmde m u, (s.sleepCommanded i st lease).2) := by
  by_cases hasks : st.state = .awake ∨ st.state = .lapsed
  · rw [State.sleepCommanded_asks hasks, State.sleepCommanded_asks hasks, show (s.withCmde m u).sleepCheck st = s.sleepCheck st from rfl]
    cases s.sleepCheck st with
    | some refusal => rfl
    | none => exact Prod.ext (State.enterSleep_withCmde s m u i st _) rfl
  · obtain ⟨hawake, hlapsed⟩ := not_or.mp hasks
    unfold State.sleepCommanded
    cases hq : st.state with
    | awake => exact absurd hq hawake
    | lapsed => exact absurd hq hlapsed
    | asleep l => exact Prod.ext (State.setStationState_withCmde s m u i _) rfl
    | _ => rfl

theorem State.sleepCommanded_refused {s : State} {i : Slot} {st : Station} {lease : Half}
    (hcode : 2 ≤ (s.sleepCommanded i st lease).2.number.toNat) : (s.sleepCommanded i st lease).1 = s := by
  by_cases hasks : st.state = .awake ∨ st.state = .lapsed
  · rw [State.sleepCommanded_asks hasks] at hcode ⊢
    cases hcheck : s.sleepCheck st with
    | some refusal => rfl
    | none =>
      rw [hcheck] at hcode
      exact absurd hcode (not_two_le_of_done (Or.inr rfl))
  · obtain ⟨hawake, hlapsed⟩ := not_or.mp hasks
    unfold State.sleepCommanded at hcode ⊢
    cases hq : st.state with
    | awake => exact absurd hq hawake
    | lapsed => exact absurd hq hlapsed
    | asleep l =>
      rw [hq] at hcode
      exact absurd hcode (not_two_le_of_done (Or.inl rfl))
    | _ => rfl

theorem sleepEvent_sound : Event.Sound sleepEvent :=
  .withHandle fun _ => ⟨fun _ _ _ _ _ => by
    simp only [State.sleepCommanded_blind], fun _ _ _ _ => State.sleepCommanded_refused⟩

theorem State.wakeUp_withCmde (s : State) (m : Cmde) (u : State) (i : Slot) (st : Station) (cause : WakeCause) :
    (s.withCmde m u).wakeUp i st cause = (s.wakeUp i st cause).withCmde m u := by
  rw [State.wakeUp_eq, State.wakeUp_eq]
  rfl

theorem State.wakeCommanded_blind (s : State) (m : Cmde) (u : State) (i : Slot) (st : Station) :
    (s.withCmde m u).wakeCommanded i st = ((s.wakeCommanded i st).1.withCmde m u, (s.wakeCommanded i st).2) := by
  unfold State.wakeCommanded
  cases st.state with
  | asleep l => exact Prod.ext (s.wakeUp_withCmde m u i st _) rfl
  | _ => rfl

theorem State.wakeCommanded_refused {s : State} {i : Slot} {st : Station} (hcode : 2 ≤ (s.wakeCommanded i st).2.number.toNat) :
    (s.wakeCommanded i st).1 = s := by
  unfold State.wakeCommanded at hcode ⊢
  cases hq : st.state with
  | asleep l =>
    rw [hq] at hcode
    exact absurd hcode (not_two_le_of_done (Or.inl rfl))
  | _ => rfl

theorem wakeEvent_sound : Event.Sound wakeEvent :=
  .withHandle fun _ => ⟨fun _ _ _ _ _ => by
    simp only [State.wakeCommanded_blind], fun _ _ _ _ => State.wakeCommanded_refused⟩

theorem State.discardHeld_withCmde (s : State) (m : Cmde) (u : State) (held : Option (Fin 16)) :
    (s.withCmde m u).discardHeld held = (s.discardHeld held).withCmde m u := by
  cases held <;> rfl

theorem State.retire_blind (s : State) (m : Cmde) (u : State) (i : Slot) (st : Station) :
    (s.withCmde m u).retire i st = ((s.retire i st).1.withCmde m u, (s.retire i st).2) := by
  unfold State.retire
  cases st.state with
  | asleep l =>
    refine Prod.ext ?_ rfl
    show ((s.withCmde m u).setStationState i .retiring).place .restore i st = _
    rw [State.setStationState_withCmde]
    rfl
  | waking cause held =>
    refine Prod.ext ?_ rfl
    show (((((s.cancelWaking i).withdrawWakes i st.address).withCmde m u).discardHeld held).setStationState i .retiring).place
      .restore i st = _
    rw [State.discardHeld_withCmde, State.setStationState_withCmde]
    rfl
  | _ => rfl

theorem State.retire_refused {s : State} {i : Slot} {st : Station} (hcode : 2 ≤ (s.retire i st).2.number.toNat) :
    (s.retire i st).1 = s := by
  unfold State.retire at hcode ⊢
  cases hq : st.state with
  | awake => rw [hq] at hcode; exact absurd hcode (not_two_le_of_done (Or.inl rfl))
  | lapsed => rw [hq] at hcode; exact absurd hcode (not_two_le_of_done (Or.inl rfl))
  | asleep l => rw [hq] at hcode; exact absurd hcode (not_two_le_of_done (Or.inr rfl))
  | waking cause held => rw [hq] at hcode; exact absurd hcode (not_two_le_of_done (Or.inr rfl))
  | retiring => rfl
  | entering o => rfl
  | leaving reason cause => rfl

theorem retireEvent_sound : Event.Sound retireEvent :=
  .withHandle fun _ => ⟨fun _ _ _ _ _ => by simp only [State.retire_blind], fun _ _ _ _ => State.retire_refused⟩

theorem clearCountersEvent_sound : Event.Sound clearCountersEvent :=
  .withHandle fun _ => ⟨fun _ _ _ _ _ => rfl, fun _ _ _ _ hcode => absurd hcode (not_two_le_of_done (Or.inl rfl))⟩

theorem findEvent_sound : Event.Sound findEvent where
  blind s m u c := by
    unfold findEvent
    rw [show (s.withCmde m u).findAddress (addressArgument c) = s.findAddress (addressArgument c) from rfl]
    cases s.findAddress (addressArgument c) <;> rfl
  refused s c _ := findEvent_state s c

theorem defineEvent_sound : Event.Sound defineEvent :=
  ⟨fun _ _ _ _ => withRule_blind fun _ => guarded_blind rfl rfl, fun _ _ => withRule_refused fun _ => guarded_refused⟩

theorem deleteEvent_sound : Event.Sound deleteEvent :=
  ⟨fun _ _ _ _ => withRule_blind fun _ => guarded_blind rfl rfl, fun _ _ => withRule_refused fun _ => guarded_refused⟩

theorem ruleReadEvent_sound : Event.Sound ruleReadEvent :=
  ⟨fun _ _ _ _ => withRule_blind fun _ => rfl, fun _ _ => withRule_refused fun _ _ => rfl⟩

/-- R156: the link is UP again, and the request in flight is sent again. -/
theorem State.restartLink_sent {s : State} {f : InFlight} (hdown : s.steer.link = .down) (hf : s.steer.inFlight = some f) :
    s.restartLink = (({ s with steer := { s.steer with link := .up } } : State).resend f 0, .ok) := by
  unfold State.restartLink
  rw [if_pos hdown]
  simp only [hf]

theorem State.restartLink_silent {s : State} (hdown : s.steer.link = .down) (hf : s.steer.inFlight = none) :
    s.restartLink = ({ s with steer := { s.steer with link := .up } }, .ok) := by
  unfold State.restartLink
  rw [if_pos hdown]
  simp only [hf]

theorem State.restartLink_notDown {s : State} (h : s.steer.link ≠ .down) : s.restartLink = (s, .notDown) := if_neg h

theorem restartEvent_sound : Event.Sound restartEvent where
  blind s m u c := by
    unfold restartEvent
    by_cases hdown : s.steer.link = .down
    · cases hf : s.steer.inFlight with
      | none => rw [State.restartLink_silent hdown hf, State.restartLink_silent (s := s.withCmde m u) hdown hf]; rfl
      | some f => rw [State.restartLink_sent hdown hf, State.restartLink_sent (s := s.withCmde m u) hdown hf]; rfl
    · rw [State.restartLink_notDown hdown, State.restartLink_notDown (s := s.withCmde m u) hdown]
  refused s c hcode := by
    unfold restartEvent at hcode ⊢
    by_cases hdown : s.steer.link = .down
    · have hok : s.restartLink.2 = .ok := by
        cases hf : s.steer.inFlight with
        | none => rw [State.restartLink_silent hdown hf]
        | some f => rw [State.restartLink_sent hdown hf]
      exact absurd hcode (not_two_le_of_done (Or.inl hok))
    · rw [State.restartLink_notDown hdown]

theorem unknownEvent_sound : Event.Sound unknownEvent := ⟨fun _ _ _ _ => rfl, fun _ _ _ => rfl⟩

/-- Each of the eighteen rows executes the latched command by checks and by a sound event. -/
theorem commandRows_run {r : CommandStage → Instr} (h : r ∈ commandRows) :
    ∃ accepts checks event, Event.Sound event ∧ ∀ u s, exec (r u) s = runRow accepts checks event u s := by
  simp only [commandRows, List.mem_cons, List.not_mem_nil, or_false] at h
  rcases h with rfl | rfl | rfl | rfl | rfl | rfl | rfl | rfl | rfl | rfl | rfl | rfl | rfl | rfl | rfl | rfl | rfl | rfl
  · exact ⟨(· = 0x01#8), createChecks, _, createEvent_sound, fun _ _ => rfl⟩
  · exact ⟨(· = 0x02#8), setTemplateChecks, _, setTemplateEvent_sound, fun _ _ => rfl⟩
  · exact ⟨(· = 0x03#8), handleChecks, _, clearTemplateEvent_sound, fun _ _ => rfl⟩
  · exact ⟨(· = 0x04#8), addIdentifierChecks, _, addIdentifierEvent_sound, fun _ _ => rfl⟩
  · exact ⟨(· = 0x05#8), removeIdentifierChecks, _, removeIdentifierEvent_sound, fun _ _ => rfl⟩
  · exact ⟨(· = 0x06#8), listedRuleChecks, _, attachRuleEvent_sound, fun _ _ => rfl⟩
  · exact ⟨(· = 0x07#8), listedRuleChecks, _, detachRuleEvent_sound, fun _ _ => rfl⟩
  · exact ⟨(· = 0x08#8), handleChecks, _, readEvent_sound, fun _ _ => rfl⟩
  · exact ⟨(· = 0x09#8), runningHandleChecks, _, sleepEvent_sound, fun _ _ => rfl⟩
  · exact ⟨(· = 0x0A#8), runningHandleChecks, _, wakeEvent_sound, fun _ _ => rfl⟩
  · exact ⟨(· = 0x0B#8), handleChecks, _, retireEvent_sound, fun _ _ => rfl⟩
  · exact ⟨(· = 0x0C#8), handleChecks, _, clearCountersEvent_sound, fun _ _ => rfl⟩
  · exact ⟨(· = 0x0D#8), noChecks, _, findEvent_sound, fun _ _ => rfl⟩
  · exact ⟨(· = 0x20#8), defineChecks, _, defineEvent_sound, fun _ _ => rfl⟩
  · exact ⟨(· = 0x21#8), ruleNumberChecks, _, deleteEvent_sound, fun _ _ => rfl⟩
  · exact ⟨(· = 0x22#8), ruleNumberChecks, _, ruleReadEvent_sound, fun _ _ => rfl⟩
  · exact ⟨(· = 0x30#8), noChecks, _, restartEvent_sound, fun _ _ => rfl⟩
  · exact ⟨fun b => !Config.commandCodes.contains b, unknownChecks, _, unknownEvent_sound, fun _ _ => rfl⟩

/-! ### The three steps (R169) -/

section
variable {accepts : Byte → Bool} {checks : Checks} {event : Event}

/-- A row whose command is not the latched one does nothing. -/
theorem runRow_idle {u : CommandStage} {s : State} (h : s.cmde.engine = .idle) : runRow accepts checks event u s = settle s := by
  unfold runRow
  rw [h]

theorem runRow_other {u : CommandStage} {s : State} {c : Memory} {p : Progress} (h : s.cmde.engine = .busy c p)
    (ha : accepts (commandCode c) ≠ true) : runRow accepts checks event u s = settle s := by
  unfold runRow
  rw [h]
  exact if_neg ha

theorem runRow_busy {u : CommandStage} {s : State} {c : Memory} {p : Progress} (h : s.cmde.engine = .busy c p)
    (ha : accepts (commandCode c) = true) : runRow accepts checks event u s = settle (s.execute c p checks event u) := by
  unfold runRow
  rw [h]
  exact if_pos ha

/-- After the first step the checks are made. -/
theorem runChecks_ne_latched (s : State) (c : Memory) (p : Progress) : runChecks checks s c p ≠ .latched := by
  cases p with
  | latched => cases h : checks s c <;> simp [runChecks, afterChecks, h]
  | _ => simp [runChecks]

/-- A step once made is not made again. -/
theorem runChecks_of_ne_latched {s : State} {c : Memory} {p : Progress} (h : p ≠ .latched) : runChecks checks s c p = p := by
  cases p with
  | latched => exact absurd rfl h
  | _ => rfl

theorem Event.Sound.cmde (h : Event.Sound event) (s : State) (c : Memory) : (event s c).1.cmde = s.cmde := by
  have hb := congrArg (fun x => x.1.cmde) (h.blind s s.cmde s c)
  exact hb

theorem execute_checks (s : State) (c : Memory) (p : Progress) :
    s.execute c p checks event .checks = s.setProgress c (runChecks checks s c p) := rfl

theorem execute_event_checked {s : State} {c : Memory} {p : Progress} (h : runChecks checks s c p = .checked) :
    s.execute c p checks event .event = (event s c).1.setProgress c (.decided (event s c).2) := by
  simp only [State.execute, h, runEvent]

theorem execute_event_decided {s : State} {c : Memory} {p : Progress} {r : Reply} (h : runChecks checks s c p = .decided r) :
    s.execute c p checks event .event = s.setProgress c (.decided r) := by
  simp only [State.execute, h, runEvent]

theorem execute_completion_checked {s : State} {c : Memory} {p : Progress} (h : runChecks checks s c p = .checked) :
    s.execute c p checks event .completion = (event s c).1.complete c (event s c).2 := by
  simp only [State.execute, h, runEvent, runCompletion]

theorem execute_completion_decided {s : State} {c : Memory} {p : Progress} {r : Reply} (h : runChecks checks s c p = .decided r) :
    s.execute c p checks event .completion = s.complete c r := by
  simp only [State.execute, h, runEvent, runCompletion]

/-- The completion writes over the engine, so it does not see the progress before it. -/
theorem settle_complete_withCmde (x : State) (e : Engine) (u : State) (c : Memory) (r : Reply) :
    settle ((x.withCmde { x.cmde with engine := e } u).complete c r) = settle (x.complete c r) := rfl

/-- A completion that takes up from a step's progress is the completion from it. -/
theorem runRow_resumed {x u : State} {c : Memory} {p : Progress} (ha : accepts (commandCode c) = true) :
    runRow accepts checks event .completion (x.withCmde { x.cmde with engine := .busy c p } u) =
      settle ((x.withCmde { x.cmde with engine := .busy c p } u).execute c p checks event .completion) :=
  runRow_busy rfl ha

/-- R169: the completion after a step does what the completion alone does. -/
theorem runRow_stages (h : Event.Sound event) {u : CommandStage} {s a : State} (hstep : runRow accepts checks event u s = .next a) :
    runRow accepts checks event .completion a = runRow accepts checks event .completion s := by
  cases hengine : s.cmde.engine with
  | idle =>
    rw [runRow_idle hengine] at hstep
    rw [runRow_idle hengine, settle_next.mp hstep, runRow_idle (s := s.drivePins) hengine]
    rfl
  | busy c p =>
    by_cases ha : accepts (commandCode c) = true
    case neg =>
      rw [runRow_other hengine ha] at hstep
      rw [runRow_other hengine ha, settle_next.mp hstep, runRow_other (s := s.drivePins) hengine ha]
      rfl
    rw [runRow_busy hengine ha] at hstep
    rw [settle_next.mp hstep, runRow_busy hengine ha]
    have hp := runChecks_ne_latched (checks := checks) s c p
    cases hrun : runChecks checks s c p with
    | latched => exact absurd hrun hp
    | checked =>
      rw [execute_completion_checked hrun]
      cases u with
      | checks =>
        rw [execute_checks, hrun]
        refine (runRow_resumed (x := s) (u := (s.setProgress c .checked).drivePins) (p := .checked) ha).trans ?_
        rw [execute_completion_checked rfl, h.blind]
        have hcmde := h.cmde s c
        rw [← hcmde]
        exact settle_complete_withCmde _ _ _ c _
      | event =>
        rw [execute_event_checked hrun]
        refine (runRow_resumed (x := (event s c).1) (u := ((event s c).1.setProgress c (.decided (event s c).2)).drivePins)
          (p := .decided (event s c).2) ha).trans ?_
        rw [execute_completion_decided rfl]
        exact settle_complete_withCmde _ _ _ c _
      | completion =>
        rw [execute_completion_checked hrun, runRow_idle rfl]
        rfl
    | decided r =>
      rw [execute_completion_decided hrun]
      have hresumed : ∀ w, runRow accepts checks event .completion (s.withCmde { s.cmde with engine := .busy c (.decided r) } w) =
          settle (s.complete c r) := fun w => by
        rw [runRow_resumed (x := s) (p := .decided r) ha, execute_completion_decided rfl]
        exact settle_complete_withCmde _ _ _ c _
      cases u with
      | checks =>
        rw [execute_checks, hrun]
        exact hresumed (s.setProgress c (.decided r)).drivePins
      | event =>
        rw [execute_event_decided hrun]
        exact hresumed (s.setProgress c (.decided r)).drivePins
      | completion =>
        rw [execute_completion_decided hrun, runRow_idle rfl]
        rfl

/-- The first step touches the progress alone. -/
theorem runRow_checks (s : State) : ∃ t, runRow accepts checks event .checks s = .next t ∧
    ({ t with cmde := { t.cmde with engine := s.cmde.engine } } : State).withPinsOf s = s := by
  cases hengine : s.cmde.engine with
  | idle => exact ⟨_, runRow_idle hengine, by rw [← hengine]; rfl⟩
  | busy c p =>
    by_cases ha : accepts (commandCode c) = true
    · exact ⟨_, runRow_busy hengine ha, by rw [← hengine]; rfl⟩
    · exact ⟨_, runRow_other hengine ha, by rw [← hengine]; rfl⟩

theorem read_resultRecord_code (c : Memory) (r : Reply) : Memory.read (Memory.ofBytes (resultRecord c r)) 2 = r.code.number := by
  rw [Memory.read_ofBytes]
  rfl

/-- R171: a command that fails changes nothing but CMDE. -/
theorem runRow_failed (h : Event.Sound event) {s t : State} {c : Memory} {p : Progress} (hengine : s.cmde.engine = .busy c p)
    (ht : runRow accepts checks event .completion s = .next t) (hidle : t.cmde.engine = .idle)
    (hcode : 2 ≤ (Memory.read t.cmde.resultArea 2).toNat) :
    t.cmde.overrun = s.cmde.overrun ∧ ({ t with cmde := s.cmde } : State).withPinsOf s = s := by
  by_cases ha : accepts (commandCode c) = true
  case neg =>
    rw [runRow_other hengine ha] at ht
    rw [settle_next.mp ht] at hidle
    exact absurd (hengine.symm.trans hidle) nofun
  rw [runRow_busy hengine ha] at ht
  rw [settle_next.mp ht] at hcode ⊢
  have hp := runChecks_ne_latched (checks := checks) s c p
  cases hrun : runChecks checks s c p with
  | latched => exact absurd hrun hp
  | checked =>
    rw [execute_completion_checked hrun] at hcode ⊢
    have hread : 2 ≤ (event s c).2.code.number.toNat := by
      rw [← read_resultRecord_code c]
      exact hcode
    rw [h.refused s c hread]
    exact ⟨rfl, rfl⟩
  | decided r =>
    rw [execute_completion_decided hrun]
    exact ⟨rfl, rfl⟩

end

/-- Settles O15: every row runs by checks and a sound event. -/
theorem commandStages : Obligations.CommandStages := by
  unfold Obligations.CommandStages
  refine ⟨⟨fun r hr u s hidle => ?_, fun r hr u s a ha => ?_, fun r hr s => ?_⟩, fun r hr s t c p hengine ht hidle hcode => ?_⟩
  all_goals obtain ⟨accepts, checks, event, hsound, hrow⟩ := commandRows_run hr
  · exact ⟨s.drivePins, (hrow u s).trans (runRow_idle hidle), rfl⟩
  · rw [hrow, hrow]
    exact runRow_stages hsound ((hrow u s).symm.trans ha)
  · rw [hrow]
    exact runRow_checks s
  · exact runRow_failed hsound hengine ((hrow _ s).symm.trans ht) hidle hcode

/-! ### Handles (R12) -/

/-- A row whose command names a station by its handle: the slot is the first check, and the event resolves the handle. -/
def RunsOnHandle (code : Byte) (r : CommandStage → Instr) : Prop :=
  ∃ (rest : State → Memory → List (Bool × ResultCode)) (f : Memory → State → Slot → Station → State × Reply),
    ∀ u s, exec (r u) s = runRow (· = code) (fun s c => firstFailed (slotCheck c :: rest s c)) (fun s c => withHandle (f c) s c) u s

theorem handleRows_run {x : Byte × (CommandStage → Instr)} (h : x ∈ handleRows) : RunsOnHandle x.1 x.2 := by
  simp only [handleRows, List.mem_cons, List.not_mem_nil, or_false] at h
  rcases h with rfl | rfl | rfl | rfl | rfl | rfl | rfl | rfl | rfl | rfl | rfl <;> exact ⟨_, _, fun _ _ => rfl⟩

theorem withHandle_stale {f : State → Slot → Station → State × Reply} {s : State} {c : Memory} {i : Slot}
    (hi : slotByte c = i.val) (hg : s.generation i ≠ generationByte c) : withHandle f s c = (s, reply .staleHandle) := by
  have hlt : slotByte c < 64 := hi ▸ i.isLt
  unfold withHandle
  rw [dif_pos hlt, show (⟨slotByte c, hlt⟩ : Slot) = i from Fin.ext hi]
  exact if_pos hg

theorem withHandle_vacant {f : State → Slot → Station → State × Reply} {s : State} {c : Memory} {i : Slot}
    (hi : slotByte c = i.val) (hg : s.generation i = generationByte c) (hst : s.station i = none) :
    withHandle f s c = (s, reply .notFound) := by
  have hlt : slotByte c < 64 := hi ▸ i.isLt
  unfold withHandle
  rw [dif_pos hlt, show (⟨slotByte c, hlt⟩ : Slot) = i from Fin.ext hi]
  simp only [hg, ne_eq, not_true_eq_false, if_false, hst]

/-- Settles O17: the slot's check comes first, and the checks passed, the handle resolves or says why not. -/
theorem handleResolution : Obligations.HandleResolution := by
  unfold Obligations.HandleResolution
  intro x hx s c hlatched
  obtain ⟨rest, f, hrow⟩ := handleRows_run hx
  have haccepts : (decide (x.1 = x.1)) = true := decide_eq_true rfl
  have hcompletion := hlatched.runRow (accepts := (· = x.1)) (checks := fun s c => firstFailed (slotCheck c :: rest s c))
    (event := fun s c => withHandle (f c) s c) haccepts
  rw [← hrow] at hcompletion
  refine ⟨fun hslot => ⟨_, hcompletion, ?_⟩, fun i a hi ha hchecked => ?_⟩
  · rw [show firstFailed (slotCheck c :: rest s c) = some .badArgument from if_pos (decide_eq_true hslot)]
    exact s.refuses_complete c _
  · have hpassed : firstFailed (slotCheck c :: rest s c) = none := by
      rw [hrow, runRow_busy hlatched.1 (by rw [hlatched.2]; exact haccepts)] at ha
      rw [settle_next.mp ha] at hchecked
      have hp : runChecks (fun s c => firstFailed (slotCheck c :: rest s c)) s c .latched = .checked := by
        injection hchecked
      cases hfailed : firstFailed (slotCheck c :: rest s c) with
      | none => rfl
      | some code => simp [runChecks, afterChecks, hfailed] at hp
    rw [hpassed] at hcompletion
    refine ⟨fun hg => ⟨_, hcompletion, ?_⟩, fun hg hst => ⟨_, hcompletion, ?_⟩⟩
    · rw [withHandle_stale hi hg]
      exact s.refuses_complete c _
    · rw [withHandle_vacant hi hg hst]
      exact s.refuses_complete c _

end Sys2Proof.Machine
end

section
/-! PROOF. The byte layouts of the result records and of the notice record (R170, R206, Tables 12-5 to 12-9). -/

namespace Sys2Proof.Machine

/-! ### A record as its fields one after another -/

/-- A field within a piece of a record, by the lengths of the pieces before it. -/
theorem fieldAt_piece {pieces : List (List Byte)} {piece : List Byte} (n : Nat) {off : Nat} (a : Nat) {len : Nat}
    (hoff : ((pieces.map List.length).take n).sum = off) (hpiece : pieces[n]? = some piece) (hin : a + len ≤ piece.length) :
    fieldAt pieces.flatten (off + a) len = fieldAt piece a len := by
  induction pieces generalizing n off with
  | nil => simp at hpiece
  | cons first rest ih =>
    cases n with
    | zero =>
      simp only [List.getElem?_cons_zero, Option.some.injEq] at hpiece
      subst hpiece
      simp only [List.take_zero, List.sum_nil] at hoff
      rw [← hoff, Nat.zero_add, List.flatten_cons, fieldAt_append_left hin]
    | succ n =>
      simp only [List.map_cons, List.take_succ_cons, List.sum_cons] at hoff
      rw [List.flatten_cons, fieldAt_append_right (by omega), show off + a - first.length = off - first.length + a by omega]
      exact ih n (by omega) hpiece

theorem byteAt_eq_of_fieldAt {l l' : List Byte} {k k' : Nat} (h : fieldAt l k 1 = fieldAt l' k' 1) : byteAt l k = byteAt l' k' :=
  BitVec.eq_of_toNat_eq (by rw [← fieldAt_one, ← fieldAt_one, h])

theorem byteAt_piece {pieces : List (List Byte)} {piece : List Byte} (n : Nat) {off : Nat} (a : Nat)
    (hoff : ((pieces.map List.length).take n).sum = off) (hpiece : pieces[n]? = some piece) (hin : a < piece.length) :
    byteAt pieces.flatten (off + a) = byteAt piece a :=
  byteAt_eq_of_fieldAt (fieldAt_piece n a hoff hpiece hin)

/-- A field within one of several entries of one width. -/
theorem fieldAt_flatMap {α : Type} {f : α → List Byte} {w : Nat} (hw : ∀ x, (f x).length = w) (l : List α) (k : Nat) (h : k < l.length)
    {a len : Nat} (hin : a + len ≤ w) : fieldAt (l.flatMap f) (w * k + a) len = fieldAt (f l[k]) a len := by
  induction l generalizing k with
  | nil => simp at h
  | cons x l ih =>
    rw [List.flatMap_cons]
    cases k with
    | zero => rw [Nat.mul_zero, Nat.zero_add, fieldAt_append_left (by rw [hw]; exact hin)]; rfl
    | succ k =>
      rw [fieldAt_append_right (by rw [hw, Nat.mul_succ]; omega), hw, Nat.mul_succ,
        show w * k + w + a - w = w * k + a by omega]
      exact ih k (by simpa using h)

theorem length_flatMap_of {α : Type} {f : α → List Byte} {w : Nat} (hw : ∀ x, (f x).length = w) (l : List α) :
    (l.flatMap f).length = w * l.length := by
  simp [List.length_flatMap, hw, Nat.mul_comm]

theorem fieldAt_halfBytes (h : Half) : fieldAt (halfBytes h) 0 2 = h.toNat := by
  rw [fieldAt_whole (halfBytes_length h), halfBytes, beNat_beBytes_of_lt h.isLt]

theorem fieldAt_beBytes {len n : Nat} (h : n < 256 ^ len) : fieldAt (beBytes len n) 0 len = n := by
  rw [fieldAt_whole (beBytes_length len n), beNat_beBytes_of_lt h]

theorem fieldAt_single {n : Nat} (h : n < 256) : fieldAt [BitVec.ofNat 8 n] 0 1 = n := by
  rw [fieldAt_one, byteAt_cons_zero, BitVec.toNat_ofNat, Nat.mod_eq_of_lt h]

theorem fieldAt_padTo {n : Nat} (l : List Byte) (off len : Nat) (h : off + len ≤ l.length) :
    fieldAt (padTo n l) off len = fieldAt l off len := fieldAt_padTo_left h

/-- The part of a padded field beyond its bytes. -/
theorem fieldAt_padTo_zero {n : Nat} {l : List Byte} {off : Nat} (h : l.length ≤ off) (len : Nat) : fieldAt (padTo n l) off len = 0 :=
  fieldAt_eq_zero fun k _ => by rw [byteAt_padTo, byteAt_of_length_le (by omega)]

/-! ### The result record (R170) -/

theorem resultRecord_read (c : Memory) (r : Reply) (k : Nat) :
    Memory.read (Memory.ofBytes (resultRecord c r)) k = if k < 256 then byteAt (resultRecord c r) k else 0#8 :=
  Memory.read_ofBytes _ k

theorem resultRecord_data (c : Memory) (r : Reply) (k : Nat) : byteAt (resultRecord c r) (4 + k) = byteAt r.data k := by
  rw [resultRecord, byteAt_append_right (by simp)]
  simp

/-! ### The station record (Table 12-6) -/

/-- The wake cause of a record as its five bytes, zero when there is none. -/
def Station.causeBytes (st : Station) : List Byte :=
  match st.state.wakeCause with
  | some cause => cause.bytes
  | none => [0#8, 0#8, 0#8, 0#8, 0#8]

/-- The pending acknowledgement of a record as its four bytes, zero when there is none. -/
def Station.pendingBytes (st : Station) : List Byte :=
  match st.state.pendingAck with
  | some (sequence, lease) => halfBytes sequence ++ halfBytes lease
  | none => [0#8, 0#8, 0#8, 0#8]

/-- The last acknowledgement of a record as its three bytes, zero when there is none. -/
def Station.lastAckBytes (st : Station) : List Byte :=
  match st.lastAck with
  | some (code, granted) => code.number :: halfBytes granted
  | none => [0#8, 0#8, 0#8]

/-- A listed identifier as five bytes. -/
def ListedIdentifier.bytes (l : ListedIdentifier) : List Byte := beBytes 4 l.identifier.toNat ++ [flagByte l.wakeOnQuery]

/-- The fields of a station record, in the order of Table 12-6. -/
def stationPieces (i : Slot) (g : Generation) (st : Station) : List (List Byte) :=
  [[BitVec.ofNat 8 i.val], [g], [st.state.code], beBytes 6 st.address.toNat, [BitVec.ofNat 8 st.port.toNat],
   beBytes 2 st.segment.toNat, halfBytes st.defaultLease, [BitVec.ofNat 8 st.identifiers.length],
   padTo 40 (st.identifiers.flatMap ListedIdentifier.bytes), [BitVec.ofNat 8 st.rules.length],
   padTo 8 (st.rules.map fun n => BitVec.ofNat 8 n.val), [BitVec.ofNat 8 (st.template.getD []).length],
   padTo 128 (st.template.getD []), [presenceByte st], optionalHalf st.state.leaseRemaining, optionalHalf st.lastSequence,
   st.lastAckBytes, st.pendingBytes, optionalHalf st.state.commandLease, st.causeBytes, [BitVec.ofNat 8 st.wakeAttempts],
   [match st.state.heldFrame with
    | some b => BitVec.ofNat 8 b.val
    | none => 0#8],
   [match st.state.leaveReason with
    | some r => r.number
    | none => 0#8],
   halfBytes st.answersSent, halfBytes st.wakesBegun, halfBytes st.framesShed]

theorem stationData_eq (i : Slot) (g : Generation) (st : Station) : stationData i g st = (stationPieces i g st).flatten := by
  simp only [stationData, optionalFields, stationPieces, handleData, List.append_assoc, List.flatten_cons, List.flatten_nil,
    List.append_nil, List.cons_append, List.nil_append] <;> rfl

theorem Station.causeBytes_length (st : Station) : st.causeBytes.length = 5 := by
  unfold Station.causeBytes
  split
  · exact WakeCause.bytes_length _
  · rfl

theorem Station.pendingBytes_length (st : Station) : st.pendingBytes.length = 4 := by
  unfold Station.pendingBytes
  split <;> simp

theorem Station.lastAckBytes_length (st : Station) : st.lastAckBytes.length = 3 := by
  unfold Station.lastAckBytes
  split <;> simp

theorem optionalHalf_length (h : Option Half) : (optionalHalf h).length = 2 := halfBytes_length _

theorem ListedIdentifier.bytes_length (l : ListedIdentifier) : l.bytes.length = 5 := by simp [ListedIdentifier.bytes]

theorem length_listed {st : Station} (hids : st.identifiers.length ≤ 8) : (st.identifiers.flatMap ListedIdentifier.bytes).length ≤ 40 := by
  rw [length_flatMap_of ListedIdentifier.bytes_length]
  omega

/-- The lengths of a station record's fields: Table 12-6 leaves room for what the lists may hold. -/
theorem stationPieces_lengths {i : Slot} {g : Generation} {st : Station} (hids : st.identifiers.length ≤ 8)
    (hrules : st.rules.length ≤ 8) (htemplate : (st.template.getD []).length ≤ 128) :
    (stationPieces i g st).map List.length =
      [1, 1, 1, 6, 1, 2, 2, 1, 40, 1, 8, 1, 128, 1, 2, 2, 3, 4, 2, 5, 1, 1, 1, 2, 2, 2] := by
  simp only [stationPieces, List.map_cons, List.map_nil, List.length_cons, List.length_nil, beBytes_length, halfBytes_length,
    padTo_length (length_listed hids), padTo_length (show (st.rules.map fun n : RuleNumber => BitVec.ofNat 8 n.val).length ≤ 8 by
      simpa using hrules),
    padTo_length htemplate, optionalHalf_length, Station.lastAckBytes_length, Station.pendingBytes_length,
    Station.causeBytes_length]

/-! ### The presence byte -/

/-- A byte made of eight flags: each is its bit. -/
theorem flags_getLsbD (b : Fin 8 → Bool) (k : Fin 8) :
    (BitVec.ofNat 8 ((if b 0 then 2 ^ 0 else 0) + (if b 1 then 2 ^ 1 else 0) + (if b 2 then 2 ^ 2 else 0) + (if b 3 then 2 ^ 3 else 0) +
      (if b 4 then 2 ^ 4 else 0) + (if b 5 then 2 ^ 5 else 0) + (if b 6 then 2 ^ 6 else 0) + (if b 7 then 2 ^ 7 else 0))).getLsbD k =
      b k := by
  have hall : ∀ b0 b1 b2 b3 b4 b5 b6 b7 : Bool, ∀ k : Fin 8,
      (BitVec.ofNat 8 ((if b0 then 2 ^ 0 else 0) + (if b1 then 2 ^ 1 else 0) + (if b2 then 2 ^ 2 else 0) + (if b3 then 2 ^ 3 else 0) +
        (if b4 then 2 ^ 4 else 0) + (if b5 then 2 ^ 5 else 0) + (if b6 then 2 ^ 6 else 0) + (if b7 then 2 ^ 7 else 0))).getLsbD k =
        ![b0, b1, b2, b3, b4, b5, b6, b7] k := by decide
  rw [hall]
  fin_cases k <;> rfl

/-- The eight flags of a station record's presence byte. -/
def Station.presence (st : Station) : Fin 8 → Bool :=
  ![st.state.leaseRemaining.isSome, st.lastSequence.isSome, st.lastAck.isSome, st.state.pendingAck.isSome,
    st.state.commandLease.isSome, st.state.wakeCause.isSome, st.state.heldFrame.isSome, st.state.leaveReason.isSome]

theorem presenceByte_getLsbD (st : Station) (k : Fin 8) : (presenceByte st).getLsbD k = st.presence k :=
  flags_getLsbD st.presence k

theorem StationState.leaseRemaining_isSome (q : StationState) : q.leaseRemaining.isSome = true ↔ ∃ l, q = .asleep (some l) := by
  cases q with
  | asleep l => cases l <;> simp [StationState.leaseRemaining]
  | _ => simp [StationState.leaseRemaining]

theorem StationState.pendingAck_isSome (q : StationState) :
    q.pendingAck.isSome = true ↔ ∃ sequence lease, q = .entering (.announced sequence lease) := by
  cases q with
  | entering o => cases o <;> simp [StationState.pendingAck]
  | _ => simp [StationState.pendingAck]

theorem StationState.commandLease_isSome (q : StationState) : q.commandLease.isSome = true ↔ ∃ lease, q = .entering (.commanded lease) := by
  cases q with
  | entering o => cases o <;> simp [StationState.commandLease]
  | _ => simp [StationState.commandLease]

theorem StationState.wakeCause_isSome (q : StationState) : q.wakeCause.isSome = true ↔
    (∃ cause held, q = .waking cause held) ∨ ∃ reason cause, q = .leaving reason (some cause) := by
  cases q with
  | leaving reason cause => cases cause <;> simp [StationState.wakeCause]
  | _ => simp [StationState.wakeCause]

theorem StationState.heldFrame_isSome (q : StationState) : q.heldFrame.isSome = true ↔ ∃ cause b, q = .waking cause (some b) := by
  cases q with
  | waking cause held => cases held <;> simp [StationState.heldFrame]
  | _ => simp [StationState.heldFrame]

theorem StationState.leaveReason_isSome (q : StationState) : q.leaveReason.isSome = true ↔ ∃ reason cause, q = .leaving reason cause := by
  cases q <;> simp [StationState.leaveReason]

theorem optionalHalf_field (h : Option Half) : fieldAt (optionalHalf h) 0 2 = (h.getD 0#16).toNat := fieldAt_halfBytes _

theorem WakeCause.bytes_kind (cause : WakeCause) : byteAt cause.bytes 0 = (match cause with
    | .lease => 1#8
    | .rule _ => 2#8
    | .query _ => 3#8
    | .command => 4#8) := by cases cause <;> rfl

theorem WakeCause.bytes_value (cause : WakeCause) : fieldAt cause.bytes 1 4 = (match cause with
    | .lease => 0
    | .rule n => n.val
    | .query id => id.toNat
    | .command => 0) := by
  cases cause with
  | lease => rfl
  | command => rfl
  | rule n =>
    have hn : n.val % 256 = n.val := Nat.mod_eq_of_lt (by have := n.isLt; omega)
    simp [WakeCause.bytes, fieldAt, hn]
  | query id =>
    show fieldAt (3#8 :: beBytes 4 id.toNat) 1 4 = id.toNat
    rw [fieldAt_cons_succ, fieldAt_beBytes id.isLt]

/-! ### The notice record (Tables 12-8, 12-9) -/

/-- The handle of a notice as its two bytes. -/
def Notice.subjectBytes (n : Notice) : List Byte :=
  match n.subject with
  | some (i, g) => [BitVec.ofNat 8 i.val, g]
  | none => [0xFF#8, 0#8]

/-- The fields of a notice record, in the order of Table 12-8. -/
def Notice.pieces (n : Notice) : List (List Byte) :=
  [[n.kind.number], [n.noticeClass.number], n.subjectBytes, [n.repeatCount], [n.age], halfBytes n.stamp, padTo 8 n.detail.bytes]

theorem Notice.record_eq (n : Notice) : n.record = n.pieces.flatten := by
  simp only [Notice.record, Notice.pieces, List.append_assoc, List.flatten_cons, List.flatten_nil, List.append_nil, List.cons_append,
    List.nil_append] <;> rfl

theorem Notice.subjectBytes_length (n : Notice) : n.subjectBytes.length = 2 := by
  unfold Notice.subjectBytes
  split <;> rfl

theorem Notice.pieces_lengths (n : Notice) : n.pieces.map List.length = [1, 1, 2, 1, 1, 2, 8] := by
  simp only [Notice.pieces, List.map_cons, List.map_nil, List.length_cons, List.length_nil, halfBytes_length,
    Notice.subjectBytes_length, padTo_length n.detail.bytes_length]

/-! ### The fields of a station record read back -/

/-- The lists and the template of a station are within what its record has room for. -/
def Station.FitsRecord (st : Station) : Prop :=
  st.identifiers.length ≤ 8 ∧ st.rules.length ≤ 8 ∧ (st.template.getD []).length ≤ 128

/-- A byte of a field of one byte. -/
theorem byteAt_of_field {l : List Byte} {k : Nat} {b : Byte} (h : fieldAt l k 1 = fieldAt [b] 0 1) : byteAt l k = b :=
  byteAt_eq_of_fieldAt h

section
variable {i : Slot} {g : Generation} {st : Station} (h : st.FitsRecord)
include h

theorem stationData_length : (stationData i g st).length = 221 := by
  rw [stationData_eq, List.length_flatten, stationPieces_lengths h.1 h.2.1 h.2.2]
  rfl

theorem stationData_field (n : Nat) {off : Nat} (a len : Nat) {piece : List Byte}
    (hoff : (([1, 1, 1, 6, 1, 2, 2, 1, 40, 1, 8, 1, 128, 1, 2, 2, 3, 4, 2, 5, 1, 1, 1, 2, 2, 2] : List Nat).take n).sum = off)
    (hpiece : (stationPieces i g st)[n]? = some piece) (hin : a + len ≤ piece.length) :
    fieldAt (stationData i g st) (off + a) len = fieldAt piece a len := by
  rw [stationData_eq]
  exact fieldAt_piece n a (by rw [stationPieces_lengths h.1 h.2.1 h.2.2]; exact hoff) hpiece hin

theorem stationData_slot : fieldAt (stationData i g st) 0 1 = i.val :=
  (stationData_field h 0 0 1 rfl rfl (Nat.le_refl 1)).trans (fieldAt_single (by have := i.isLt; omega))

theorem stationData_generation : byteAt (stationData i g st) 1 = g :=
  byteAt_of_field (stationData_field h 1 0 1 rfl rfl (Nat.le_refl 1))

theorem stationData_state : byteAt (stationData i g st) 2 = st.state.code :=
  byteAt_of_field (stationData_field h 2 0 1 rfl rfl (Nat.le_refl 1))

theorem stationData_address : fieldAt (stationData i g st) 3 6 = st.address.toNat :=
  (stationData_field h 3 0 6 rfl rfl (by rw [beBytes_length])).trans (fieldAt_beBytes st.address.isLt)

theorem stationData_port : fieldAt (stationData i g st) 9 1 = st.port.toNat :=
  (stationData_field h 4 0 1 rfl rfl (Nat.le_refl 1)).trans (fieldAt_single (by have := st.port.isLt; omega))

theorem stationData_segment : fieldAt (stationData i g st) 10 2 = st.segment.toNat :=
  (stationData_field h 5 0 2 rfl rfl (by rw [beBytes_length])).trans (fieldAt_beBytes (by have := st.segment.isLt; omega))

theorem stationData_defaultLease : fieldAt (stationData i g st) 12 2 = st.defaultLease.toNat :=
  (stationData_field h 6 0 2 rfl rfl (by rw [halfBytes_length])).trans (fieldAt_halfBytes _)

theorem stationData_identifierCount : fieldAt (stationData i g st) 14 1 = st.identifiers.length :=
  (stationData_field h 7 0 1 rfl rfl (Nat.le_refl 1)).trans (fieldAt_single (by have := h.1; omega))

theorem stationData_listed (a len : Nat) (hin : a + len ≤ 40) : fieldAt (stationData i g st) (15 + a) len =
    fieldAt (padTo 40 (st.identifiers.flatMap ListedIdentifier.bytes)) a len :=
  stationData_field h 8 a len rfl rfl (by rw [padTo_length (length_listed h.1)]; exact hin)

/-- A field of one of the listed identifiers. -/
theorem stationData_listedField (k : Nat) (hk : k < st.identifiers.length) (a len : Nat) (hin : a + len ≤ 5) :
    fieldAt (stationData i g st) (15 + (5 * k + a)) len = fieldAt st.identifiers[k].bytes a len := by
  have hlength := length_flatMap_of ListedIdentifier.bytes_length st.identifiers
  have hids := h.1
  rw [stationData_listed h _ _ (by omega), fieldAt_padTo _ _ _ (by omega)]
  exact fieldAt_flatMap ListedIdentifier.bytes_length st.identifiers k hk hin

theorem stationData_identifier (k : Nat) (hk : k < st.identifiers.length) :
    fieldAt (stationData i g st) (15 + 5 * k) 4 = st.identifiers[k].identifier.toNat :=
  (stationData_listedField h k hk 0 4 (by omega)).trans (fieldAt_beBytes_append st.identifiers[k].identifier.isLt _)

theorem stationData_flag (k : Nat) (hk : k < st.identifiers.length) :
    byteAt (stationData i g st) (19 + 5 * k) = flagByte st.identifiers[k].wakeOnQuery := by
  rw [show 19 + 5 * k = 15 + (5 * k + 4) by omega, byteAt_eq_of_fieldAt (stationData_listedField h k hk 4 1 (by omega)),
    ListedIdentifier.bytes, byteAt_append_right (by simp)]
  simp [byteAt_cons_zero]

theorem stationData_identifiers_end (k : Nat) (hlow : 15 + 5 * st.identifiers.length ≤ k) (hhigh : k < 55) :
    byteAt (stationData i g st) k = 0#8 := by
  have hlength := length_flatMap_of ListedIdentifier.bytes_length st.identifiers
  obtain ⟨j, rfl⟩ : ∃ j, k = 15 + j := ⟨k - 15, by omega⟩
  rw [byteAt_eq_of_fieldAt (stationData_listed h j 1 (by omega)), byteAt_padTo, byteAt_of_length_le (by omega)]

theorem stationData_ruleCount : fieldAt (stationData i g st) 55 1 = st.rules.length :=
  (stationData_field h 9 0 1 rfl rfl (Nat.le_refl 1)).trans (fieldAt_single (by have := h.2.1; omega))

theorem stationData_rules (k : Nat) (hk : k < 8) :
    byteAt (stationData i g st) (56 + k) = byteAt (st.rules.map fun n => BitVec.ofNat 8 n.val) k := by
  have hlength : (padTo 8 (st.rules.map fun n : RuleNumber => BitVec.ofNat 8 n.val)).length = 8 :=
    padTo_length (by simpa using h.2.1)
  rw [byteAt_eq_of_fieldAt (stationData_field h 10 (off := 56) k 1 rfl rfl (by omega)), byteAt_padTo]

theorem stationData_rule (k : Nat) (hk : k < st.rules.length) : fieldAt (stationData i g st) (56 + k) 1 = st.rules[k].val := by
  have hlength := h.2.1
  have hn : st.rules[k].val % 256 = st.rules[k].val := Nat.mod_eq_of_lt (by have := st.rules[k].isLt; omega)
  rw [fieldAt_one, stationData_rules h k (by omega)]
  simp [byteAt, List.getD, hk, hn]

theorem stationData_rules_end (k : Nat) (hlow : 56 + st.rules.length ≤ k) (hhigh : k < 64) : byteAt (stationData i g st) k = 0#8 := by
  obtain ⟨j, rfl⟩ : ∃ j, k = 56 + j := ⟨k - 56, by omega⟩
  rw [stationData_rules h j (by omega), byteAt_of_length_le (by simp; omega)]

theorem stationData_templateLength : fieldAt (stationData i g st) 64 1 = (st.template.getD []).length :=
  (stationData_field h 11 0 1 rfl rfl (Nat.le_refl 1)).trans (fieldAt_single (by have := h.2.2; omega))

theorem stationData_template (k : Nat) (hk : k < 128) : byteAt (stationData i g st) (65 + k) = byteAt (st.template.getD []) k := by
  have hlength : (padTo 128 (st.template.getD [])).length = 128 := padTo_length h.2.2
  rw [byteAt_eq_of_fieldAt (stationData_field h 12 (off := 65) k 1 rfl rfl (by omega)), byteAt_padTo]

theorem stationData_template_end (k : Nat) (hlow : 65 + (st.template.getD []).length ≤ k) (hhigh : k < 193) :
    byteAt (stationData i g st) k = 0#8 := by
  obtain ⟨j, rfl⟩ : ∃ j, k = 65 + j := ⟨k - 65, by omega⟩
  rw [stationData_template h j (by omega), byteAt_of_length_le (by omega)]

theorem stationData_presence : byteAt (stationData i g st) 193 = presenceByte st :=
  byteAt_of_field (stationData_field h 13 0 1 rfl rfl (Nat.le_refl 1))

theorem stationData_leaseRemaining : fieldAt (stationData i g st) 194 2 = (st.state.leaseRemaining.getD 0#16).toNat :=
  (stationData_field h 14 0 2 rfl rfl (by rw [optionalHalf_length])).trans (optionalHalf_field _)

theorem stationData_lastSequence : fieldAt (stationData i g st) 196 2 = (st.lastSequence.getD 0#16).toNat :=
  (stationData_field h 15 0 2 rfl rfl (by rw [optionalHalf_length])).trans (optionalHalf_field _)

theorem stationData_lastAck (a len : Nat) (hin : a + len ≤ 3) :
    fieldAt (stationData i g st) (198 + a) len = fieldAt st.lastAckBytes a len :=
  stationData_field h 16 a len rfl rfl (by rw [Station.lastAckBytes_length]; exact hin)

theorem stationData_pending (a len : Nat) (hin : a + len ≤ 4) :
    fieldAt (stationData i g st) (201 + a) len = fieldAt st.pendingBytes a len :=
  stationData_field h 17 a len rfl rfl (by rw [Station.pendingBytes_length]; exact hin)

theorem stationData_commandLease : fieldAt (stationData i g st) 205 2 = (st.state.commandLease.getD 0#16).toNat :=
  (stationData_field h 18 0 2 rfl rfl (by rw [optionalHalf_length])).trans (optionalHalf_field _)

theorem stationData_cause (a len : Nat) (hin : a + len ≤ 5) :
    fieldAt (stationData i g st) (207 + a) len = fieldAt st.causeBytes a len :=
  stationData_field h 19 a len rfl rfl (by rw [Station.causeBytes_length]; exact hin)

theorem stationData_attempts (hattempts : st.wakeAttempts < 256) : fieldAt (stationData i g st) 212 1 = st.wakeAttempts :=
  (stationData_field h 20 0 1 rfl rfl (Nat.le_refl 1)).trans (fieldAt_single hattempts)

theorem stationData_heldFrame : byteAt (stationData i g st) 213 = match st.state.heldFrame with
    | some b => BitVec.ofNat 8 b.val
    | none => 0#8 := byteAt_of_field (stationData_field h 21 0 1 rfl rfl (Nat.le_refl 1))

theorem stationData_leaveReason : byteAt (stationData i g st) 214 = match st.state.leaveReason with
    | some r => r.number
    | none => 0#8 := byteAt_of_field (stationData_field h 22 0 1 rfl rfl (Nat.le_refl 1))

theorem stationData_answersSent : fieldAt (stationData i g st) 215 2 = st.answersSent.toNat :=
  (stationData_field h 23 0 2 rfl rfl (by rw [halfBytes_length])).trans (fieldAt_halfBytes _)

theorem stationData_wakesBegun : fieldAt (stationData i g st) 217 2 = st.wakesBegun.toNat :=
  (stationData_field h 24 0 2 rfl rfl (by rw [halfBytes_length])).trans (fieldAt_halfBytes _)

theorem stationData_framesShed : fieldAt (stationData i g st) 219 2 = st.framesShed.toNat :=
  (stationData_field h 25 0 2 rfl rfl (by rw [halfBytes_length])).trans (fieldAt_halfBytes _)

theorem stationData_ackCode {code : AckCode} {granted : Half} (hack : st.lastAck = some (code, granted)) :
    byteAt (stationData i g st) 198 = code.number := by
  refine byteAt_of_field ((stationData_lastAck h 0 1 (by omega)).trans ?_)
  rw [Station.lastAckBytes, hack]
  rfl

theorem stationData_ackGranted {code : AckCode} {granted : Half} (hack : st.lastAck = some (code, granted)) :
    fieldAt (stationData i g st) 199 2 = granted.toNat := by
  refine (stationData_lastAck h 1 2 (by omega)).trans ?_
  rw [Station.lastAckBytes, hack]
  exact fieldAt_halfBytes granted

theorem stationData_noAck (hnone : st.lastAck = none) : fieldAt (stationData i g st) 198 3 = 0 := by
  refine (stationData_lastAck h 0 3 (by omega)).trans ?_
  rw [Station.lastAckBytes, hnone]
  rfl

theorem stationData_pendingSequence : fieldAt (stationData i g st) 201 2 = match st.state with
    | .entering (.announced q _) => q.toNat
    | _ => 0 := by
  refine (stationData_pending h 0 2 (by omega)).trans ?_
  unfold Station.pendingBytes
  cases st.state with
  | entering o =>
    cases o with
    | announced q lease => exact (fieldAt_append_left (by simp) _).trans (fieldAt_halfBytes q)
    | commanded lease => rfl
  | _ => rfl

theorem stationData_pendingLease : fieldAt (stationData i g st) 203 2 = match st.state with
    | .entering (.announced _ lease) => lease.toNat
    | _ => 0 := by
  refine (stationData_pending h 2 2 (by omega)).trans ?_
  unfold Station.pendingBytes
  cases st.state with
  | entering o =>
    cases o with
    | announced q lease => exact (fieldAt_append_right (by simp) _ _).trans (fieldAt_halfBytes lease)
    | commanded lease => rfl
  | _ => rfl

theorem stationData_noCause (hnone : st.state.wakeCause = none) : fieldAt (stationData i g st) 207 5 = 0 := by
  refine (stationData_cause h 0 5 (by omega)).trans ?_
  rw [Station.causeBytes, hnone]
  rfl

theorem stationData_causeKind {cause : WakeCause} (hsome : st.state.wakeCause = some cause) :
    byteAt (stationData i g st) 207 = byteAt cause.bytes 0 := by
  refine byteAt_eq_of_fieldAt ((stationData_cause h 0 1 (by omega)).trans ?_)
  rw [Station.causeBytes, hsome]

theorem stationData_causeValue {cause : WakeCause} (hsome : st.state.wakeCause = some cause) :
    fieldAt (stationData i g st) 208 4 = fieldAt cause.bytes 1 4 := by
  refine (stationData_cause h 1 4 (by omega)).trans ?_
  rw [Station.causeBytes, hsome]

end

/-! ### The record of a rule -/

/-- A span as four bytes. -/
def Span.bytes (x : Span) : List Byte := beBytes 2 x.offset ++ beBytes 2 x.length

/-- The fields of the record of a DEFINED rule, in the order of Table 12-7. -/
def rulePieces (n : RuleNumber) (refCount : Nat) (b : RuleBody) : List (List Byte) :=
  [[BitVec.ofNat 8 n.val], [1#8], [BitVec.ofNat 8 refCount], [b.scope.number], [BitVec.ofNat 8 b.spans.length],
   beBytes 4 b.digest.toNat, padTo 32 (b.spans.flatMap Span.bytes)]

theorem Span.bytes_length (x : Span) : x.bytes.length = 4 := by simp [Span.bytes]

theorem ruleData_defined {n : RuleNumber} {r : Rule} {b : RuleBody} (h : r.body = some b) :
    ruleData n r = (rulePieces n r.refCount b).flatten := by
  simp only [ruleData, h, rulePieces, List.flatten_cons, List.flatten_nil, List.append_nil, List.cons_append,
    List.nil_append] <;> rfl

theorem ruleData_free {n : RuleNumber} {r : Rule} (h : r.body = none) :
    ruleData n r = padTo 41 [BitVec.ofNat 8 n.val, 0#8, BitVec.ofNat 8 r.refCount] := by simp only [ruleData, h]

section
variable {n : RuleNumber} {r : Rule} {b : RuleBody} (hbody : r.body = some b) (h : b.spans.length ≤ 8)
include h

theorem spanBytes_padded : (padTo 32 (b.spans.flatMap Span.bytes)).length = 32 :=
  padTo_length (by rw [length_flatMap_of Span.bytes_length]; omega)

theorem rulePieces_lengths (refCount : Nat) : (rulePieces n refCount b).map List.length = [1, 1, 1, 1, 1, 4, 32] := by
  simp only [rulePieces, List.map_cons, List.map_nil, List.length_cons, List.length_nil, beBytes_length, spanBytes_padded h]

include hbody

theorem ruleData_length_of_fits : (ruleData n r).length = 41 := by
  rw [ruleData_defined hbody, List.length_flatten, rulePieces_lengths h]
  rfl

theorem ruleData_field (k : Nat) {off : Nat} (a len : Nat) {piece : List Byte}
    (hoff : (([1, 1, 1, 1, 1, 4, 32] : List Nat).take k).sum = off) (hpiece : (rulePieces n r.refCount b)[k]? = some piece)
    (hin : a + len ≤ piece.length) : fieldAt (ruleData n r) (off + a) len = fieldAt piece a len := by
  rw [ruleData_defined hbody]
  exact fieldAt_piece k a (by rw [rulePieces_lengths h]; exact hoff) hpiece hin

theorem ruleData_number : fieldAt (ruleData n r) 0 1 = n.val :=
  (ruleData_field hbody h 0 0 1 rfl rfl (Nat.le_refl 1)).trans (fieldAt_single (by have := n.isLt; omega))

theorem ruleData_refCount (hcount : r.refCount ≤ 64) : fieldAt (ruleData n r) 2 1 = r.refCount :=
  (ruleData_field hbody h 2 0 1 rfl rfl (Nat.le_refl 1)).trans (fieldAt_single (by omega))

theorem ruleData_state : byteAt (ruleData n r) 1 = 1#8 := byteAt_of_field (ruleData_field hbody h 1 0 1 rfl rfl (Nat.le_refl 1))

theorem ruleData_scope : byteAt (ruleData n r) 3 = b.scope.number :=
  byteAt_of_field (ruleData_field hbody h 3 0 1 rfl rfl (Nat.le_refl 1))

theorem ruleData_spanCount : fieldAt (ruleData n r) 4 1 = b.spans.length :=
  (ruleData_field hbody h 4 0 1 rfl rfl (Nat.le_refl 1)).trans (fieldAt_single (by omega))

theorem ruleData_digest : fieldAt (ruleData n r) 5 4 = b.digest.toNat :=
  (ruleData_field hbody h 5 0 4 rfl rfl (by rw [beBytes_length])).trans (fieldAt_beBytes b.digest.isLt)

theorem ruleData_spans (a len : Nat) (hin : a + len ≤ 32) :
    fieldAt (ruleData n r) (9 + a) len = fieldAt (padTo 32 (b.spans.flatMap Span.bytes)) a len :=
  ruleData_field hbody h 6 a len rfl rfl (by rw [spanBytes_padded h]; exact hin)

theorem ruleData_spans_end (k : Nat) (hk : 9 + 4 * b.spans.length ≤ k) : byteAt (ruleData n r) k = 0#8 := by
  have hlength := length_flatMap_of Span.bytes_length b.spans
  by_cases hin : k < 41
  · obtain ⟨j, rfl⟩ : ∃ j, k = 9 + j := ⟨k - 9, by omega⟩
    rw [byteAt_eq_of_fieldAt (ruleData_spans hbody h j 1 (by omega)), byteAt_padTo, byteAt_of_length_le (by omega)]
  · exact byteAt_of_length_le (by rw [ruleData_length_of_fits hbody h]; omega)

/-- A field of one of the spans. -/
theorem ruleData_spanField (k : Nat) (hk : k < b.spans.length) (a len : Nat) (hin : a + len ≤ 4) :
    fieldAt (ruleData n r) (9 + (4 * k + a)) len = fieldAt b.spans[k].bytes a len := by
  have hlength := length_flatMap_of Span.bytes_length b.spans
  rw [ruleData_spans hbody h _ _ (by omega), fieldAt_padTo _ _ _ (by omega)]
  exact fieldAt_flatMap Span.bytes_length b.spans k hk hin

theorem ruleData_span (k : Nat) (hk : k < b.spans.length) (hoffset : b.spans[k].offset < 65536) (hlength : b.spans[k].length < 65536) :
    fieldAt (ruleData n r) (9 + 4 * k) 2 = b.spans[k].offset ∧ fieldAt (ruleData n r) (11 + 4 * k) 2 = b.spans[k].length := by
  refine ⟨(ruleData_spanField hbody h k hk 0 2 (by omega)).trans (fieldAt_beBytes_append (by omega) _), ?_⟩
  rw [show 11 + 4 * k = 9 + (4 * k + 2) by omega, ruleData_spanField hbody h k hk 2 2 (by omega)]
  exact (fieldAt_append_right (by simp) _ _).trans (fieldAt_beBytes (by omega))

end

/-! ### The record of a notice -/

theorem Notice.record_field (m : Notice) (n : Nat) {off : Nat} (a len : Nat) {piece : List Byte}
    (hoff : (([1, 1, 2, 1, 1, 2, 8] : List Nat).take n).sum = off) (hpiece : m.pieces[n]? = some piece)
    (hin : a + len ≤ piece.length) : fieldAt m.record (off + a) len = fieldAt piece a len := by
  rw [Notice.record_eq]
  exact fieldAt_piece n a (by rw [Notice.pieces_lengths]; exact hoff) hpiece hin

theorem Notice.record_kind (m : Notice) : byteAt m.record 0 = m.kind.number :=
  byteAt_of_field (m.record_field 0 0 1 rfl rfl (Nat.le_refl 1))

theorem Notice.record_class (m : Notice) : byteAt m.record 1 = m.kind.noticeClass.number :=
  byteAt_of_field (m.record_field 1 0 1 rfl rfl (Nat.le_refl 1))

theorem Notice.record_subject (m : Notice) (a len : Nat) (hin : a + len ≤ 2) :
    fieldAt m.record (2 + a) len = fieldAt m.subjectBytes a len :=
  m.record_field 2 a len rfl rfl (by rw [m.subjectBytes_length]; exact hin)

theorem Notice.record_slot (m : Notice) : fieldAt m.record 2 1 = match m.subject with
    | some (i, _) => i.val
    | none => 0xFF := by
  refine (m.record_subject 0 1 (by omega)).trans ?_
  unfold Notice.subjectBytes
  cases m.subject with
  | none => rfl
  | some x => exact fieldAt_single (n := x.1.val) (by have := x.1.isLt; omega)

theorem Notice.record_generation (m : Notice) : byteAt m.record 3 = match m.subject with
    | some (_, g) => g
    | none => 0#8 := by
  refine (byteAt_eq_of_fieldAt (m.record_subject 1 1 (by omega))).trans ?_
  unfold Notice.subjectBytes
  cases m.subject <;> rfl

theorem Notice.record_repeatCount (m : Notice) : byteAt m.record 4 = m.repeatCount :=
  byteAt_of_field (m.record_field 3 0 1 rfl rfl (Nat.le_refl 1))

theorem Notice.record_age (m : Notice) : byteAt m.record 5 = m.age :=
  byteAt_of_field (m.record_field 4 0 1 rfl rfl (Nat.le_refl 1))

theorem Notice.record_stamp (m : Notice) : fieldAt m.record 6 2 = m.stamp.toNat :=
  (m.record_field 5 0 2 rfl rfl (by rw [halfBytes_length])).trans (fieldAt_halfBytes _)

/-- A field within the detail's own bytes. -/
theorem Notice.record_detail (m : Notice) (a len : Nat) (hin : a + len ≤ m.detail.bytes.length) :
    fieldAt m.record (8 + a) len = fieldAt m.detail.bytes a len := by
  have hfits := m.detail.bytes_length
  rw [m.record_field 6 (off := 8) a len rfl rfl (by rw [padTo_length hfits]; omega), fieldAt_padTo _ _ _ hin]

/-- A field after the detail's own bytes. -/
theorem Notice.record_detail_end (m : Notice) (a len : Nat) (hlow : m.detail.bytes.length ≤ a) (hhigh : a + len ≤ 8) :
    fieldAt m.record (8 + a) len = 0 := by
  rw [m.record_field 6 (off := 8) a len rfl rfl (by rw [padTo_length m.detail.bytes_length]; exact hhigh), fieldAt_padTo_zero hlow]

/-- A detail of two codes: the bytes read, then zeros. -/
theorem Notice.record_two (m : Notice) {x y : Byte} (h : m.detail.bytes = [x, y]) :
    byteAt m.record 8 = x ∧ byteAt m.record 9 = y ∧ fieldAt m.record 10 6 = 0 := by
  refine ⟨byteAt_of_field ((m.record_detail 0 1 (by rw [h]; exact Nat.le_succ 1)).trans (by rw [h]; rfl)),
    byteAt_of_field ((m.record_detail 1 1 (by rw [h]; exact Nat.le_refl 2)).trans (by rw [h]; rfl)),
    m.record_detail_end 2 6 (by rw [h]; exact Nat.le_refl 2) (by omega)⟩

/-- A detail of one code. -/
theorem Notice.record_one (m : Notice) {x : Byte} (h : m.detail.bytes = [x]) :
    byteAt m.record 8 = x ∧ fieldAt m.record 9 7 = 0 :=
  ⟨byteAt_of_field ((m.record_detail 0 1 (by rw [h]; exact Nat.le_refl 1)).trans (by rw [h])),
    m.record_detail_end 1 7 (by rw [h]; exact Nat.le_refl 1) (by omega)⟩

/-- A detail that is a number of `len` bytes. -/
theorem Notice.record_number (m : Notice) {len n : Nat} (h : m.detail.bytes = beBytes len n) (hn : n < 256 ^ len) (hlen : len ≤ 8) :
    fieldAt m.record 8 len = n ∧ fieldAt m.record (8 + len) (8 - len) = 0 :=
  ⟨(m.record_detail 0 len (by rw [h, beBytes_length, Nat.zero_add])).trans (by rw [h, fieldAt_beBytes hn]),
    m.record_detail_end len (8 - len) (by rw [h, beBytes_length]) (by omega)⟩

/-- A detail that is a wake cause. -/
theorem Notice.record_cause (m : Notice) {cause : WakeCause} (h : m.detail.bytes = cause.bytes) :
    byteAt m.record 8 = byteAt cause.bytes 0 ∧ fieldAt m.record 9 4 = fieldAt cause.bytes 1 4 ∧ fieldAt m.record 13 3 = 0 := by
  have hlength := cause.bytes_length
  refine ⟨byteAt_eq_of_fieldAt ((m.record_detail 0 1 ?_).trans (by rw [h])), (m.record_detail 1 4 ?_).trans (by rw [h]),
    m.record_detail_end 5 3 ?_ (by omega)⟩ <;> rw [h, hlength]
  omega

/-! ### The layouts -/

/-- Settles O16: each record as its fields one after another, each field read back where its table puts it. -/
theorem recordLayouts : Obligations.RecordLayouts := by
  unfold Obligations.RecordLayouts
  refine ⟨fun c r hlen => ?result, ⟨fun i g st hids hrules htemplate => ?station, fun n r hspans hcount => ?rule⟩, fun m => ?notice⟩
  case result =>
    have hread := resultRecord_read c r
    refine ⟨hread 0, hread 1, ?_, ?_, fun k hk => ?_, fun k hk => ?_⟩
    · rw [read_resultRecord_code]
      cases r.code <;> rfl
    · rw [hread]
      show (BitVec.ofNat 8 r.data.length).toNat = _
      rw [BitVec.toNat_ofNat, Nat.mod_eq_of_lt (by omega)]
    · rw [hread, if_pos (by omega), resultRecord_data]
      rfl
    · rw [hread]
      split
      · rw [show k = 4 + (k - 4) by omega, resultRecord_data, byteAt_of_length_le (by omega)]
      · rfl
  case station =>
    have h : st.FitsRecord := ⟨hids, hrules, htemplate⟩
    have hbit := presenceByte_getLsbD st
    have hcauses := st.state.wakeCause_isSome
    refine ⟨stationData_length h, stationData_slot h, stationData_generation h, (stationData_state h).trans ?state,
      stationData_address h, stationData_port h, stationData_segment h, stationData_defaultLease h, stationData_identifierCount h,
      fun k hk => ⟨stationData_identifier h k hk, stationData_flag h k hk⟩, stationData_identifiers_end h, stationData_ruleCount h,
      stationData_rule h, stationData_rules_end h, stationData_templateLength h, fun k hk => stationData_template h k (by omega),
      stationData_template_end h, ?presence, (stationData_leaseRemaining h).trans ?leaseRemaining,
      (stationData_lastSequence h).trans ?lastSequence, stationData_noAck h,
      fun code granted hack => ⟨(stationData_ackCode h hack).trans ?ackCode, stationData_ackGranted h hack⟩,
      stationData_pendingSequence h, stationData_pendingLease h, (stationData_commandLease h).trans ?commandLease,
      fun hwaking hleaving => stationData_noCause h ?noCause, fun cause hcause => ?cause, stationData_attempts h, ?heldFrame,
      (stationData_leaveReason h).trans ?leaveReason, stationData_answersSent h, stationData_wakesBegun h, stationData_framesShed h⟩
    case state => cases st.state <;> rfl
    case presence =>
      rw [stationData_presence h]
      exact ⟨(iff_of_eq (congrArg (· = true) (hbit 0))).trans st.state.leaseRemaining_isSome,
        (iff_of_eq (congrArg (· = true) (hbit 1))).trans Option.isSome_iff_ne_none,
        (iff_of_eq (congrArg (· = true) (hbit 2))).trans Option.isSome_iff_ne_none,
        (iff_of_eq (congrArg (· = true) (hbit 3))).trans st.state.pendingAck_isSome,
        (iff_of_eq (congrArg (· = true) (hbit 4))).trans st.state.commandLease_isSome,
        (iff_of_eq (congrArg (· = true) (hbit 5))).trans hcauses,
        (iff_of_eq (congrArg (· = true) (hbit 6))).trans st.state.heldFrame_isSome,
        (iff_of_eq (congrArg (· = true) (hbit 7))).trans st.state.leaveReason_isSome⟩
    case leaseRemaining =>
      cases st.state with
      | asleep l => cases l <;> rfl
      | _ => rfl
    case lastSequence => cases st.lastSequence <;> rfl
    case ackCode => cases code <;> rfl
    case commandLease =>
      cases st.state with
      | entering o => cases o <;> rfl
      | _ => rfl
    case noCause =>
      rw [← Option.not_isSome_iff_eq_none, hcauses]
      rintro (⟨cause, held, hq⟩ | ⟨reason, cause, hq⟩)
      · exact hwaking cause held hq
      · exact hleaving reason cause hq
    case cause =>
      have hsome : st.state.wakeCause = some cause := by
        rcases hcause with ⟨held, hq⟩ | ⟨reason, hq⟩ <;> rw [hq] <;> rfl
      exact ⟨(stationData_causeKind h hsome).trans cause.bytes_kind, (stationData_causeValue h hsome).trans cause.bytes_value⟩
    case heldFrame =>
      rw [fieldAt_one, stationData_heldFrame h]
      cases st.state with
      | waking cause held =>
        cases held with
        | none => rfl
        | some b => exact (BitVec.toNat_ofNat b.val 8).trans (Nat.mod_eq_of_lt (by have := b.isLt; omega))
      | _ => rfl
    case leaveReason =>
      cases st.state with
      | leaving reason cause => cases reason <;> rfl
      | _ => rfl
  case rule =>
    cases hbody : r.body with
    | none =>
      rw [ruleData_free hbody]
      have hn := n.isLt
      refine ⟨padTo_length (by simp), ?_, ?_, fun _ k hk => ?_, nofun⟩
      · exact (fieldAt_padTo _ 0 1 (by simp)).trans (fieldAt_single (n := n.val) (by omega))
      · exact (fieldAt_padTo _ 2 1 (by simp)).trans (fieldAt_single (n := r.refCount) (by omega))
      · rw [byteAt_padTo]
        rcases hk with hk | rfl
        · exact byteAt_of_length_le (by simpa using hk)
        · rfl
    | some b =>
      have h := hspans b hbody
      refine ⟨ruleData_length_of_fits hbody h, ruleData_number hbody h, ruleData_refCount hbody h hcount, nofun, fun b' hb' => ?_⟩
      injection hb' with hb'
      subst hb'
      refine ⟨ruleData_state hbody h, (ruleData_scope hbody h).trans ?_, ruleData_spanCount hbody h, ruleData_digest hbody h,
        ruleData_spans_end hbody h, ruleData_span hbody h⟩
      cases b.scope <;> rfl
  case notice =>
    refine ⟨m.record_length, m.record_kind.trans ?kind, m.record_class.trans ?noticeClass, m.record_slot, m.record_generation,
      m.record_repeatCount, m.record_age, m.record_stamp, ?detail⟩
    case kind => cases m.kind <;> rfl
    case noticeClass => cases m.kind <;> rfl
    case detail =>
      intro requestKind
      have hkind : ∀ k : RequestKind, k.number = requestKind k := fun k => by cases k <;> rfl
      cases hd : m.detail with
      | none => exact m.record_detail_end 0 8 (by rw [hd]; exact Nat.le_refl 0) (by omega)
      | cause cause =>
        obtain ⟨hcode, hvalue, hrest⟩ := m.record_cause (cause := cause) (by rw [hd]; rfl)
        exact ⟨hcode.trans cause.bytes_kind, hvalue.trans cause.bytes_value, hrest⟩
      | request kind sequence =>
        obtain ⟨hcode, hvalue, hrest⟩ := m.record_two (x := kind.number) (y := sequence.setWidth 8) (by rw [hd]; rfl)
        refine ⟨hcode.trans (hkind kind), ?_, hrest⟩
        rw [fieldAt_one, hvalue, BitVec.toNat_setWidth, Nat.mod_eq_of_lt (by have := sequence.isLt; omega)]
      | lease effective =>
        exact m.record_number (len := 2) (n := effective.toNat) (by rw [hd]; rfl) effective.isLt (by omega)
      | refusal kind reason =>
        obtain ⟨hcode, hvalue, hrest⟩ := m.record_two (x := kind.number) (y := reasonNumber reason) (by rw [hd]; rfl)
        refine ⟨hcode.trans (hkind kind), hvalue.trans ?_, hrest⟩
        cases reason <;> rfl
      | mode q =>
        obtain ⟨hcode, hrest⟩ := m.record_one (x := BitVec.ofNat 8 q.number) (by rw [hd]; rfl)
        refine ⟨hcode.trans ?_, hrest⟩
        cases q <;> rfl
      | address a => exact m.record_number (len := 6) (n := a.toNat) (by rw [hd]; rfl) a.isLt (by omega)
      | rule n =>
        obtain ⟨hcode, hrest⟩ := m.record_one (x := BitVec.ofNat 8 n.val) (by rw [hd]; rfl)
        refine ⟨?_, hrest⟩
        rw [fieldAt_one, hcode, BitVec.toNat_ofNat, Nat.mod_eq_of_lt (by have := n.isLt; omega)]
      | drop answer cause =>
        obtain ⟨hcode, hvalue, hrest⟩ := m.record_two (x := answer.number) (y := cause.number) (by rw [hd]; rfl)
        refine ⟨hcode.trans ?_, hvalue.trans ?_, hrest⟩
        · cases answer <;> rfl
        · cases cause <;> rfl

end Sys2Proof.Machine
end

section
/-! PROOF. Enrolment, the template, STATION_READ, the counters, STEER_RESTART and the unknown codes (R14 to R16, R18, R19, R120, R121,
R156, R171, R174, R175, R185). -/

namespace Sys2Proof.Machine

/-! ### Ordered checks -/

theorem firstFailed_cons_of {b : Bool} (h : b = true) (k : ResultCode) (l : List (Bool × ResultCode)) :
    firstFailed ((b, k) :: l) = some k := if_pos h

theorem firstFailed_cons_of_not {b : Bool} (h : b = false) (k : ResultCode) (l : List (Bool × ResultCode)) :
    firstFailed ((b, k) :: l) = firstFailed l := if_neg (by simp [h])

/-- Checks that give one code: one that fails gives it. -/
theorem firstFailed_of_all {l : List (Bool × ResultCode)} {k : ResultCode} (hall : ∀ x ∈ l, x.2 = k) (hfails : ∃ x ∈ l, x.1 = true) :
    firstFailed l = some k := by
  cases h : firstFailed l with
  | none =>
    obtain ⟨x, hx, hfail⟩ := hfails
    exact absurd ((firstFailed_none.mp h x hx).symm.trans hfail) (by decide)
  | some code => rw [show code = k from hall _ (firstFailed_mem h)]

theorem guarded_cons_of {b : Bool} (h : b = true) (k : ResultCode) (l : List (Bool × ResultCode)) (s : State) (e : State × Reply) :
    guarded ((b, k) :: l) s e = (s, reply k) := by rw [guarded, firstFailed_cons_of h]

theorem guarded_cons_of_not {b : Bool} (h : b = false) (k : ResultCode) (l : List (Bool × ResultCode)) (s : State)
    (e : State × Reply) : guarded ((b, k) :: l) s e = guarded l s e := by
  rw [guarded, guarded, firstFailed_cons_of_not h]

theorem guarded_nil (s : State) (e : State × Reply) : guarded [] s e = e := rfl

/-! ### A command from its latch to its completion -/

/-- What a row leaves of the command just latched, before the pins are driven. -/
def rowResult (checks : Checks) (event : Event) (s : State) (c : Memory) : State :=
  match checks s c with
  | some code => s.complete c (reply code)
  | none => (event s c).1.complete c (event s c).2

section
variable {checks : Checks} {event : Event} {s : State} {c : Memory}

theorem latched_completes {code : Byte} (h : s.Latched code c) {accepts : Byte → Bool} (ha : accepts code = true) :
    runRow accepts checks event .completion s = .next (rowResult checks event s c).drivePins := h.runRow ha

theorem rowResult_refused {k : ResultCode} (h : checks s c = some k) : s.Refuses (rowResult checks event s c).drivePins c k := by
  rw [rowResult, h]
  exact s.refuses_complete c k

theorem rowResult_event {u : State} {r : Reply} (hchecks : checks s c = none) (hevent : event s c = (u, r)) :
    rowResult checks event s c = u.complete c r := by simp only [rowResult, hchecks, hevent]

/-- An event that refuses leaves the state to its result. -/
theorem rowResult_event_refused {k : ResultCode} (hchecks : checks s c = none) (hevent : event s c = (s, reply k)) :
    s.Refuses (rowResult checks event s c).drivePins c k := by
  rw [rowResult_event hchecks hevent]
  exact s.refuses_complete c k

end

theorem slotCheck_passes {c : Memory} {i : Slot} (h : slotByte c = i.val) : (slotCheck c).1 = false := by
  have := i.isLt
  simp only [slotCheck, decide_eq_false_iff_not]
  omega

theorem State.Resolves.handle {s : State} {c : Memory} {i : Slot} {st : Station} (h : s.Resolves c i st)
    (f : State → Slot → Station → State × Reply) : withHandle f s c = f s i st := withHandle_resolved h.1 h.2.1 h.2.2

theorem handleChecks_pass {s : State} {c : Memory} {i : Slot} (h : slotByte c = i.val) : handleChecks s c = none :=
  firstFailed_none.mpr (List.forall_mem_singleton.mpr (slotCheck_passes h))

/-- The station of one slot is all that a command which sets it changes beside its result. -/
theorem State.setStation_onlyStation (s : State) (i : Slot) (st : Station) (c : Memory) (r : Reply) :
    s.OnlyStation ((s.setStation i st).complete c r).drivePins i (some st) := State.onlyStation_of_setStation rfl

/-! ### STATION_CREATE -/

theorem createChecks_fail {s : State} {c : Memory} (h : (addressArgument c).getLsbD 40 = true ∨ addressArgument c = 0#48 ∨
    31 < (Memory.read c 8).toNat ∨ 4095 < Memory.field c 9 2) : createChecks s c = some .badArgument := by
  refine firstFailed_of_all (by simp) ?_
  rcases h with h | h | h | h
  · exact ⟨_, List.mem_cons_self, h⟩
  · exact ⟨_, List.mem_cons_of_mem _ List.mem_cons_self, decide_eq_true h⟩
  · exact ⟨_, List.mem_cons_of_mem _ (List.mem_cons_of_mem _ List.mem_cons_self), decide_eq_true h⟩
  · exact ⟨_, List.mem_cons_of_mem _ (List.mem_cons_of_mem _ (List.mem_cons_of_mem _ List.mem_cons_self)), decide_eq_true h⟩

theorem createChecks_pass {s : State} {c : Memory} (hgroup : (addressArgument c).getLsbD 40 = false) (hzero : addressArgument c ≠ 0#48)
    (hport : (Memory.read c 8).toNat ≤ 31) (hsegment : Memory.field c 9 2 ≤ 4095) : createChecks s c = none := by
  refine firstFailed_none.mpr ?_
  simp only [List.forall_mem_cons, decide_eq_false_iff_not, Nat.not_lt, isGroup]
  exact ⟨hgroup, hzero, hport, hsegment, by simp⟩

theorem createEvent_own {s : State} {c : Memory} (h : addressArgument c = s.mport.settings.partAddress) :
    createEvent s c = (s, reply .badArgument) := if_pos h

theorem createEvent_duplicate {s : State} {c : Memory} (hown : addressArgument c ≠ s.mport.settings.partAddress) {i : Slot}
    {st : Station} (hst : s.station i = some st) (ha : st.address = addressArgument c) :
    createEvent s c = (s, reply .duplicateAddress) := by
  have hfound : (s.findAddress (addressArgument c)).isSome = true := by
    by_contra hnone
    rw [Bool.not_eq_true, Option.isSome_eq_false_iff, Option.isNone_iff_eq_none] at hnone
    exact State.findAddress_none hnone i st hst ha
  rw [createEvent, if_neg hown, if_pos hfound]

theorem not_found_of_new {s : State} {a : Address} (hnew : ∀ i st, s.station i = some st → st.address ≠ a) :
    ¬ (s.findAddress a).isSome = true := by simp [State.findAddress_eq_none hnew]

theorem createEvent_full {s : State} {c : Memory} (hown : addressArgument c ≠ s.mport.settings.partAddress)
    (hnew : ∀ i st, s.station i = some st → st.address ≠ addressArgument c) (hfull : ∀ i, s.station i ≠ none) :
    createEvent s c = (s, reply .tableFull) := by
  have hlow : lowest (fun r => r.station.isNone) s.stab = none := by
    rw [lowest_none]
    exact fun i => by simpa [State.station, Option.isSome_iff_ne_none] using hfull i
  rw [createEvent, if_neg hown, if_neg (not_found_of_new hnew), hlow]

theorem createEvent_enrols {s : State} {c : Memory} (hown : addressArgument c ≠ s.mport.settings.partAddress)
    (hnew : ∀ i st, s.station i = some st → st.address ≠ addressArgument c) {i : Slot} (hi : s.station i = none)
    (hlowest : ∀ j < i, s.station j ≠ none) :
    createEvent s c = (s.setStation i (newStation c), { code := .ok, data := handleData i (s.generation i) }) := by
  have hlow : lowest (fun r => r.station.isNone) s.stab = some i :=
    lowest_eq_some (by simpa [State.station] using hi) fun k hk => by
      simpa [State.station, Option.isSome_iff_ne_none] using hlowest k hk
  rw [createEvent, if_neg hown, if_neg (not_found_of_new hnew), hlow]

theorem exec_stationCreate {s : State} {c : Memory} (h : s.Latched 0x01#8 c) :
    exec (.stationCreate .completion) s = .next (rowResult createChecks createEvent s c).drivePins :=
  latched_completes h (accepts := (· = 0x01#8)) (by decide)

/-- Settles O18: the checks in their order, then the lowest VACANT slot. -/
theorem stationCreateResult : Obligations.StationCreateResult := by
  unfold Obligations.StationCreateResult
  intro s c a h ha
  subst ha
  refine ⟨_, exec_stationCreate h, fun hbad => ?bad, fun hgroup hzero hport hsegment hown => ?_⟩
  case bad =>
    by_cases hchecks : (addressArgument c).getLsbD 40 = true ∨ addressArgument c = 0#48 ∨ 31 < (Memory.read c 8).toNat ∨
        4095 < Memory.field c 9 2
    · exact rowResult_refused (createChecks_fail hchecks)
    · simp only [not_or, Bool.not_eq_true, Nat.not_lt] at hchecks
      obtain ⟨hgroup, hzero, hport, hsegment⟩ := hchecks
      have hown : addressArgument c = s.mport.settings.partAddress := by
        rcases hbad with hb | hb | hb | hb | hb
        · rw [hgroup] at hb; cases hb
        · exact absurd hb hzero
        · omega
        · omega
        · exact hb
      exact rowResult_event_refused (createChecks_pass hgroup hzero hport hsegment) (createEvent_own hown)
  have hpass := createChecks_pass (s := s) hgroup hzero hport hsegment
  refine ⟨fun ⟨i, st, hst, haddress⟩ => rowResult_event_refused hpass (createEvent_duplicate hown hst haddress),
    fun hnew hfull => rowResult_event_refused hpass (createEvent_full hown hnew hfull), fun i hnew hi hlowest => ?_⟩
  rw [rowResult_event hpass (createEvent_enrols hown hnew hi hlowest)]
  exact ⟨rfl, s.setStation_onlyStation i _ c _, rfl⟩

/-! ### The template, STATION_READ and the counters -/

theorem StationState.templateMayChange_iff (q : StationState) : q.templateMayChange = true ↔ q = .awake ∨ q = .lapsed := by
  cases q <;> simp [StationState.templateMayChange]

theorem setTemplateChecks_fail {s : State} {c : Memory} (h : (Memory.read c 4).toNat < 60 ∨ 128 < (Memory.read c 4).toNat) :
    setTemplateChecks s c = some .badArgument :=
  firstFailed_of_all (by simp [slotCheck]) ⟨_, List.mem_cons_of_mem _ List.mem_cons_self, decide_eq_true h⟩

theorem setTemplateChecks_pass {s : State} {c : Memory} {i : Slot} (hlow : 60 ≤ (Memory.read c 4).toNat)
    (hhigh : (Memory.read c 4).toNat ≤ 128) (hi : slotByte c = i.val) : setTemplateChecks s c = none := by
  refine firstFailed_none.mpr (List.forall_mem_cons.mpr ⟨slotCheck_passes hi, List.forall_mem_singleton.mpr ?_⟩)
  rw [decide_eq_false_iff_not]
  simp only [Config.templateMin, Config.templateMax]
  omega

theorem exec_stationSetTemplate {s : State} {c : Memory} (h : s.Latched 0x02#8 c) :
    exec (.stationSetTemplate .completion) s = .next (rowResult setTemplateChecks setTemplateEvent s c).drivePins :=
  latched_completes h (accepts := (· = 0x02#8)) (by decide)

theorem exec_stationClearTemplate {s : State} {c : Memory} (h : s.Latched 0x03#8 c) :
    exec (.stationClearTemplate .completion) s = .next (rowResult handleChecks clearTemplateEvent s c).drivePins :=
  latched_completes h (accepts := (· = 0x03#8)) (by decide)

theorem exec_stationRead {s : State} {c : Memory} (h : s.Latched 0x08#8 c) :
    exec (.stationRead .completion) s = .next (rowResult handleChecks readEvent s c).drivePins :=
  latched_completes h (accepts := (· = 0x08#8)) (by decide)

theorem exec_stationClearCounters {s : State} {c : Memory} (h : s.Latched 0x0C#8 c) :
    exec (.stationClearCounters .completion) s = .next (rowResult handleChecks clearCountersEvent s c).drivePins :=
  latched_completes h (accepts := (· = 0x0C#8)) (by decide)

/-- The one check of a template's record: its state (R120). -/
theorem guarded_template {s u : State} {st : Station} :
    guarded [(!st.state.templateMayChange, .stateConflict)] s (u, reply .ok) =
      if st.state = .awake ∨ st.state = .lapsed then (u, reply .ok) else (s, reply .stateConflict) := by
  by_cases h : st.state.templateMayChange = true
  · rw [if_pos ((st.state.templateMayChange_iff).mp h), guarded_cons_of_not (by simp [h]), guarded_nil]
  · rw [if_neg (mt (st.state.templateMayChange_iff).mpr h), guarded_cons_of (by simp [h])]

/-- Settles O19: each command resolves its handle, and the state of the record decides. -/
theorem templateReadClearResult : Obligations.TemplateReadClearResult := by
  unfold Obligations.TemplateReadClearResult
  refine ⟨⟨fun s c h => ?set, fun s c i st h hresolves => ?clear⟩, fun s c i st h hresolves => ?read,
    fun s c i st h hresolves => ?counters⟩
  case set =>
    refine ⟨_, exec_stationSetTemplate h, fun hbad => rowResult_refused (setTemplateChecks_fail hbad), fun i st hlow hhigh hresolves => ?_⟩
    have hpass := setTemplateChecks_pass (s := s) hlow hhigh hresolves.1
    have hevent : setTemplateEvent s c = _ := hresolves.handle _
    rw [guarded_template] at hevent
    refine ⟨fun hq => ?_, fun hawake hlapsed => ?_⟩
    · rw [if_pos hq] at hevent
      rw [rowResult_event hpass hevent]
      exact ⟨rfl, s.setStation_onlyStation i _ c _, rfl⟩
    · rw [if_neg (not_or.mpr ⟨hawake, hlapsed⟩)] at hevent
      exact rowResult_event_refused hpass hevent
  case clear =>
    refine ⟨_, exec_stationClearTemplate h, ?_⟩
    have hpass := handleChecks_pass (s := s) hresolves.1
    have hevent : clearTemplateEvent s c = _ := hresolves.handle _
    rw [guarded_template] at hevent
    refine ⟨fun hq => ?_, fun hawake hlapsed => ?_⟩
    · rw [if_pos hq] at hevent
      rw [rowResult_event hpass hevent]
      exact ⟨rfl, s.setStation_onlyStation i _ c _, rfl⟩
    · rw [if_neg (not_or.mpr ⟨hawake, hlapsed⟩)] at hevent
      exact rowResult_event_refused hpass hevent
  case read =>
    refine ⟨_, exec_stationRead h, ?_⟩
    rw [rowResult_event (handleChecks_pass hresolves.1) (hresolves.handle _)]
    exact ⟨rfl, rfl⟩
  case counters =>
    refine ⟨_, exec_stationClearCounters h, ?_⟩
    rw [rowResult_event (handleChecks_pass hresolves.1) (hresolves.handle _)]
    exact ⟨rfl, s.setStation_onlyStation i _ c _, rfl⟩

/-! ### STEER_RESTART and the unknown codes -/

theorem exec_steerRestart {s : State} {c : Memory} (h : s.Latched 0x30#8 c) :
    exec (.steerRestart .completion) s = .next (rowResult noChecks restartEvent s c).drivePins :=
  latched_completes h (accepts := (· = 0x30#8)) (by decide)

/-- A byte that is none of the seventeen codes. -/
theorem not_commandCode {code : Byte} (h : code = 0x00#8 ∨ 0x0D#8 < code ∧ code < 0x20#8 ∨ 0x22#8 < code ∧ code < 0x30#8 ∨ 0x30#8 < code) :
    (!Config.commandCodes.contains code) = true := by
  rw [Bool.not_eq_true', List.contains_eq_mem, decide_eq_false_iff_not]
  intro hmem
  simp only [Config.commandCodes, List.mem_cons, List.not_mem_nil, or_false] at hmem
  rcases hmem with rfl | rfl | rfl | rfl | rfl | rfl | rfl | rfl | rfl | rfl | rfl | rfl | rfl | rfl | rfl | rfl | rfl <;>
    exact absurd h (by decide)

theorem exec_unknownCommandCode {s : State} {c : Memory} {code : Byte} (h : s.Latched code c)
    (hcode : (!Config.commandCodes.contains code) = true) :
    exec (.unknownCommandCode .completion) s = .next (rowResult unknownChecks unknownEvent s c).drivePins :=
  latched_completes h (accepts := fun b => !Config.commandCodes.contains b) hcode

/-- Settles O26: the link is DOWN and its request is sent again, or there is nothing to restart. -/
theorem restartAndUnknownResult : Obligations.RestartAndUnknownResult := by
  unfold Obligations.RestartAndUnknownResult
  refine ⟨fun s c h hup => ⟨_, exec_steerRestart h, ?_⟩, fun s c f h hdown hf => ⟨_, exec_steerRestart h, ?_⟩,
    fun s c h hdown hf => ⟨_, exec_steerRestart h, ?_⟩, fun s c code h hcode => ⟨_, exec_unknownCommandCode h (not_commandCode hcode),
      rowResult_refused rfl⟩⟩
  · exact rowResult_event_refused rfl (by rw [restartEvent, State.restartLink_notDown hup])
  · rw [rowResult_event (u := ({ s with steer := { s.steer with link := .up } } : State).resend f 0) (r := reply .ok) rfl
      (by rw [restartEvent, State.restartLink_sent hdown hf])]
    exact ⟨rfl, rfl, rfl, rfl⟩
  · rw [rowResult_event (u := { s with steer := { s.steer with link := .up } }) (r := reply .ok) rfl
      (by rw [restartEvent, State.restartLink_silent hdown hf])]
    exact ⟨rfl, rfl, rfl⟩

end Sys2Proof.Machine
end

section
/-! PROOF. The commands on a record's lists (R51 to R53, R72, R73, R176, R177). -/

namespace Sys2Proof.Machine

/-! ### The checks at CMDE -/

theorem illegalIdentifier_iff (id : Identifier) : illegalIdentifier id = true ↔ id = 0#32 ∨ id = 0xFFFFFFFF#32 := by
  simp [illegalIdentifier]

theorem addIdentifierChecks_fail {s : State} {c : Memory}
    (h : identifierArgument c = 0#32 ∨ identifierArgument c = 0xFFFFFFFF#32 ∨ 1 < (Memory.read c 8).toNat) :
    addIdentifierChecks s c = some .badArgument := by
  refine firstFailed_of_all (by simp [slotCheck]) ?_
  rcases h with h | h | h
  · exact ⟨_, List.mem_cons_of_mem _ List.mem_cons_self, (illegalIdentifier_iff _).mpr (Or.inl h)⟩
  · exact ⟨_, List.mem_cons_of_mem _ List.mem_cons_self, (illegalIdentifier_iff _).mpr (Or.inr h)⟩
  · exact ⟨_, List.mem_cons_of_mem _ (List.mem_cons_of_mem _ List.mem_cons_self), decide_eq_true h⟩

theorem illegalIdentifier_eq_false {id : Identifier} (hzero : id ≠ 0#32) (hones : id ≠ 0xFFFFFFFF#32) : illegalIdentifier id = false := by
  rw [← Bool.not_eq_true, illegalIdentifier_iff]
  exact not_or.mpr ⟨hzero, hones⟩

theorem addIdentifierChecks_pass {s : State} {c : Memory} {i : Slot} (hi : slotByte c = i.val) (hzero : identifierArgument c ≠ 0#32)
    (hones : identifierArgument c ≠ 0xFFFFFFFF#32) (hflag : (Memory.read c 8).toNat ≤ 1) : addIdentifierChecks s c = none := by
  refine firstFailed_none.mpr (List.forall_mem_cons.mpr ⟨slotCheck_passes hi, List.forall_mem_cons.mpr
    ⟨illegalIdentifier_eq_false hzero hones, List.forall_mem_singleton.mpr ?_⟩⟩)
  simpa using hflag

theorem removeIdentifierChecks_fail {s : State} {c : Memory}
    (h : identifierArgument c = 0#32 ∨ identifierArgument c = 0xFFFFFFFF#32) :
    removeIdentifierChecks s c = some .badArgument :=
  firstFailed_of_all (by simp [slotCheck]) ⟨_, List.mem_cons_of_mem _ List.mem_cons_self, (illegalIdentifier_iff _).mpr h⟩

theorem removeIdentifierChecks_pass {s : State} {c : Memory} {i : Slot} (hi : slotByte c = i.val)
    (hzero : identifierArgument c ≠ 0#32) (hones : identifierArgument c ≠ 0xFFFFFFFF#32) : removeIdentifierChecks s c = none :=
  firstFailed_none.mpr (List.forall_mem_cons.mpr ⟨slotCheck_passes hi, List.forall_mem_singleton.mpr
    (illegalIdentifier_eq_false hzero hones)⟩)

theorem listedRuleChecks_fail {s : State} {c : Memory} (h : 95 < listedRuleByte c) : listedRuleChecks s c = some .badArgument :=
  firstFailed_of_all (by simp [slotCheck, ruleCheck]) ⟨_, List.mem_cons_of_mem _ List.mem_cons_self, decide_eq_true h⟩

theorem ruleCheck_passes {k : Nat} {n : RuleNumber} (h : n.val = k) : (ruleCheck k).1 = false := by
  have := n.isLt
  simp only [ruleCheck, decide_eq_false_iff_not]
  omega

theorem listedRuleChecks_pass {s : State} {c : Memory} {i : Slot} {n : RuleNumber} (hi : slotByte c = i.val)
    (hn : n.val = listedRuleByte c) : listedRuleChecks s c = none :=
  firstFailed_none.mpr (List.forall_mem_cons.mpr ⟨slotCheck_passes hi, List.forall_mem_singleton.mpr (ruleCheck_passes hn)⟩)

/-! ### The events at the record -/

section
variable {s : State} {c : Memory} {i : Slot} {st : Station}

theorem exec_stationAddIdentifier (h : s.Latched 0x04#8 c) :
    exec (.stationAddIdentifier .completion) s = .next (rowResult addIdentifierChecks addIdentifierEvent s c).drivePins :=
  latched_completes h (accepts := (· = 0x04#8)) (by decide)

theorem exec_stationRemoveIdentifier (h : s.Latched 0x05#8 c) :
    exec (.stationRemoveIdentifier .completion) s = .next (rowResult removeIdentifierChecks removeIdentifierEvent s c).drivePins :=
  latched_completes h (accepts := (· = 0x05#8)) (by decide)

theorem exec_stationAttachRule (h : s.Latched 0x06#8 c) :
    exec (.stationAttachRule .completion) s = .next (rowResult listedRuleChecks attachRuleEvent s c).drivePins :=
  latched_completes h (accepts := (· = 0x06#8)) (by decide)

theorem exec_stationDetachRule (h : s.Latched 0x07#8 c) :
    exec (.stationDetachRule .completion) s = .next (rowResult listedRuleChecks detachRuleEvent s c).drivePins :=
  latched_completes h (accepts := (· = 0x07#8)) (by decide)

theorem mapHolds_iff (idmap : List MapEntry) (id : Identifier) (segment : Segment) :
    mapHolds idmap id segment = true ↔ ∃ e ∈ idmap, e.identifier = id ∧ e.segment = segment := by simp [mapHolds]

theorem addIdentifierEvent_eq (h : s.Resolves c i st) : addIdentifierEvent s c =
    guarded [(decide (st.state = .retiring), .stateConflict),
      (mapHolds s.idmap (identifierArgument c) st.segment, .duplicateIdentifier),
      (decide (8 ≤ st.identifiers.length), .listFull),
      (decide (256 ≤ s.idmap.length), .mapFull)] s
      (s.addIdentifier i st (identifierArgument c) (decide (Memory.read c 8 = 1#8)), reply .ok) := h.handle _

theorem removeIdentifierEvent_eq (h : s.Resolves c i st) : removeIdentifierEvent s c =
    guarded [(decide (st.state = .retiring), .stateConflict),
      (!st.identifiers.any (fun l => decide (l.identifier = identifierArgument c)), .notFound)] s
      (s.removeIdentifier i st (identifierArgument c), reply .ok) := h.handle _

theorem attachRuleEvent_eq (h : s.Resolves c i st) {n : RuleNumber} (hn : n.val = listedRuleByte c) : attachRuleEvent s c =
    guarded [(decide (st.state = .retiring), .stateConflict), (s.rstore[n.val].body.isNone, .ruleUndefined),
      (decide (n ∈ st.rules), .duplicateRule), (decide (8 ≤ st.rules.length), .listFull)] s
      (s.attachRule i st n, reply .ok) := (h.handle _).trans (withRule_eq hn)

theorem detachRuleEvent_eq (h : s.Resolves c i st) {n : RuleNumber} (hn : n.val = listedRuleByte c) : detachRuleEvent s c =
    guarded [(decide (st.state = .retiring), .stateConflict), (decide (n ∉ st.rules), .notFound)] s
      (s.detachRule i st n, reply .ok) := (h.handle _).trans (withRule_eq hn)

end

/-- Settles O21: each command's checks in their order, then the list and its map or count together. -/
theorem listCommandsResult : Obligations.ListCommandsResult := by
  unfold Obligations.ListCommandsResult
  refine ⟨⟨fun s c id h hid => ?add, fun s c id h hid => ?remove⟩, fun s c h => ?attach, fun s c h => ?detach⟩
  case add =>
    subst hid
    refine ⟨_, exec_stationAddIdentifier h, fun hbad => rowResult_refused (addIdentifierChecks_fail hbad),
      fun i st hzero hones hflag hresolves => ?_⟩
    have hpass := addIdentifierChecks_pass (s := s) hresolves.1 hzero hones hflag
    have hevent := addIdentifierEvent_eq hresolves
    refine ⟨fun hretiring => ?_, fun hretiring hheld => ?_, fun hretiring hnew => ?_⟩
    · rw [guarded_cons_of (decide_eq_true hretiring)] at hevent
      exact rowResult_event_refused hpass hevent
    · rw [guarded_cons_of_not (decide_eq_false hretiring), guarded_cons_of ((mapHolds_iff _ _ _).mpr hheld)] at hevent
      exact rowResult_event_refused hpass hevent
    have hfree : mapHolds s.idmap (identifierArgument c) st.segment = false := by
      rw [← Bool.not_eq_true, mapHolds_iff]
      rintro ⟨e, he, hkey, hsegment⟩
      exact hnew e he hkey hsegment
    rw [guarded_cons_of_not (decide_eq_false hretiring), guarded_cons_of_not hfree] at hevent
    refine ⟨fun hfull => ?_, fun hroom hfull => ?_, fun hroom hmap => ?_⟩
    · rw [guarded_cons_of (decide_eq_true hfull)] at hevent
      exact rowResult_event_refused hpass hevent
    · rw [guarded_cons_of_not (decide_eq_false (Nat.not_le.mpr hroom)), guarded_cons_of (decide_eq_true hfull)] at hevent
      exact rowResult_event_refused hpass hevent
    · rw [guarded_cons_of_not (decide_eq_false (Nat.not_le.mpr hroom)), guarded_cons_of_not (decide_eq_false (Nat.not_le.mpr hmap)),
        guarded_nil] at hevent
      rw [rowResult_event hpass hevent]
      exact ⟨rfl, State.onlyStation_of_setStation rfl, rfl, rfl⟩
  case remove =>
    subst hid
    refine ⟨_, exec_stationRemoveIdentifier h, fun hbad => rowResult_refused (removeIdentifierChecks_fail hbad),
      fun i st hzero hones hresolves => ?_⟩
    have hpass := removeIdentifierChecks_pass (s := s) hresolves.1 hzero hones
    have hevent := removeIdentifierEvent_eq hresolves
    refine ⟨fun hretiring => ?_, fun hretiring hnone => ?_, fun hretiring hlisted => ?_⟩
    · rw [guarded_cons_of (decide_eq_true hretiring)] at hevent
      exact rowResult_event_refused hpass hevent
    · rw [guarded_cons_of_not (decide_eq_false hretiring), guarded_cons_of (by simpa using hnone)] at hevent
      exact rowResult_event_refused hpass hevent
    · rw [guarded_cons_of_not (decide_eq_false hretiring), guarded_cons_of_not (by simpa using hlisted), guarded_nil] at hevent
      rw [rowResult_event hpass hevent]
      refine ⟨rfl, State.onlyStation_of_setStation rfl, ?_, rfl⟩
      refine List.filter_congr fun e _ => ?_
      rw [← Bool.decide_and, decide_not]
  case attach =>
    refine ⟨_, exec_stationAttachRule h, fun hbad => rowResult_refused (listedRuleChecks_fail hbad), fun n i st hn hresolves => ?_⟩
    have hpass := listedRuleChecks_pass (s := s) hresolves.1 hn
    have hevent := attachRuleEvent_eq hresolves hn
    refine ⟨fun hretiring => ?_, fun hretiring hundefined => ?_, fun hretiring hdefined => ?_⟩
    · rw [guarded_cons_of (decide_eq_true hretiring)] at hevent
      exact rowResult_event_refused hpass hevent
    · rw [guarded_cons_of_not (decide_eq_false hretiring), guarded_cons_of (by simpa using hundefined)] at hevent
      exact rowResult_event_refused hpass hevent
    rw [guarded_cons_of_not (decide_eq_false hretiring), guarded_cons_of_not (by simpa [Option.isSome_iff_ne_none] using hdefined)] at hevent
    refine ⟨fun hlisted => ?_, fun hnew hfull => ?_, fun hnew hroom => ?_⟩
    · rw [guarded_cons_of (decide_eq_true hlisted)] at hevent
      exact rowResult_event_refused hpass hevent
    · rw [guarded_cons_of_not (decide_eq_false hnew), guarded_cons_of (decide_eq_true hfull)] at hevent
      exact rowResult_event_refused hpass hevent
    · rw [guarded_cons_of_not (decide_eq_false hnew), guarded_cons_of_not (decide_eq_false (Nat.not_le.mpr hroom)), guarded_nil] at hevent
      rw [rowResult_event hpass hevent]
      refine ⟨rfl, State.onlyStation_of_setStation rfl, fun m => ?_, rfl⟩
      show (updateCount s.rstore n (· + 1))[m.val] = _
      rw [updateCount, tset_get]
      simp only [eq_comm (a := n)]
  case detach =>
    refine ⟨_, exec_stationDetachRule h, fun hbad => rowResult_refused (listedRuleChecks_fail hbad), fun n i st hn hresolves => ?_⟩
    have hpass := listedRuleChecks_pass (s := s) hresolves.1 hn
    have hevent := detachRuleEvent_eq hresolves hn
    refine ⟨fun hretiring => ?_, fun hretiring hnone => ?_, fun hretiring hlisted => ?_⟩
    · rw [guarded_cons_of (decide_eq_true hretiring)] at hevent
      exact rowResult_event_refused hpass hevent
    · rw [guarded_cons_of_not (decide_eq_false hretiring), guarded_cons_of (decide_eq_true hnone)] at hevent
      exact rowResult_event_refused hpass hevent
    · rw [guarded_cons_of_not (decide_eq_false hretiring), guarded_cons_of_not (decide_eq_false (not_not.mpr hlisted)),
        guarded_nil] at hevent
      rw [rowResult_event hpass hevent]
      refine ⟨rfl, State.onlyStation_of_setStation rfl, fun m => ?_, rfl⟩
      show (updateCount s.rstore n (· - 1))[m.val] = _
      rw [updateCount, tset_get]
      simp only [eq_comm (a := n)]

end Sys2Proof.Machine
end

section
/-! PROOF. STATION_SLEEP, STATION_WAKE, STATION_RETIRE, RULE_DEFINE and RULE_DELETE (R29 to R33, R37, R38, R41 to R43, R60, R69, R70,
R178 to R180, R183, R184). -/

namespace Sys2Proof.Machine

/-! ### STATION_SLEEP and STATION_WAKE -/

section
variable {s : State} {c : Memory} {i : Slot} {st : Station}

theorem runningHandleChecks_notRunning (hslot : slotByte c ≤ 63) (hmode : s.steer.mode ≠ .running) :
    runningHandleChecks s c = some .notRunning := by
  rw [runningHandleChecks, slotCheck, firstFailed_cons_of_not (decide_eq_false (Nat.not_lt.mpr hslot)), runningCheck,
    firstFailed_cons_of (decide_eq_true hmode)]

theorem runningHandleChecks_pass (hi : slotByte c = i.val) (hmode : s.steer.mode = .running) : runningHandleChecks s c = none :=
  firstFailed_none.mpr (List.forall_mem_cons.mpr ⟨slotCheck_passes hi, List.forall_mem_singleton.mpr (by simp [runningCheck, hmode])⟩)

theorem exec_stationSleep (h : s.Latched 0x09#8 c) :
    exec (.stationSleep .completion) s = .next (rowResult runningHandleChecks sleepEvent s c).drivePins :=
  latched_completes h (accepts := (· = 0x09#8)) (by decide)

theorem exec_stationWake (h : s.Latched 0x0A#8 c) :
    exec (.stationWake .completion) s = .next (rowResult runningHandleChecks wakeEvent s c).drivePins :=
  latched_completes h (accepts := (· = 0x0A#8)) (by decide)

theorem sleepEvent_eq (h : s.Resolves c i st) {u : State} {k : ResultCode}
    (hr : s.sleepCommanded i st (BitVec.ofNat 16 (Memory.field c 4 2)) = (u, k)) : sleepEvent s c = (u, reply k) :=
  (h.handle _).trans (by rw [hr])

theorem wakeEvent_eq (h : s.Resolves c i st) {u : State} {k : ResultCode} (hr : s.wakeCommanded i st = (u, k)) :
    wakeEvent s c = (u, reply k) := (h.handle _).trans (by rw [hr])

/-- R29 with the mode RUNNING: the link, then the template. -/
theorem State.sleepCheck_linkDown (hmode : s.steer.mode = .running) (hlink : s.steer.link ≠ .up) :
    s.sleepCheck st = some .linkDown := by
  rw [State.sleepCheck, if_neg (not_not.mpr hmode), if_pos hlink]

theorem State.sleepCheck_noTemplate (hmode : s.steer.mode = .running) (hlink : s.steer.link = .up) (ht : st.template = none) :
    s.sleepCheck st = some .noTemplate := by
  rw [State.sleepCheck, if_neg (not_not.mpr hmode), if_neg (not_not.mpr hlink), ht]
  rfl

theorem State.sleepCheck_passes (hmode : s.steer.mode = .running) (hlink : s.steer.link = .up) (ht : st.template ≠ none) :
    s.sleepCheck st = none := by
  rw [State.sleepCheck, if_neg (not_not.mpr hmode), if_neg (not_not.mpr hlink), if_neg (by simpa using ht)]

/-- R29: the record ENTERING and the DIVERT at the tail of the queue. -/
theorem State.enterSleep_eq (h : s.station i = some st) (o : SleepOrigin) : s.enterSleep i st o =
    { s.setStation i { st with state := .entering o } with steer := s.steer.withRequest .divert i st } := by
  rw [State.enterSleep, State.setStationState_eq h, State.place_eq]
  rfl

/-- R32: the lease an ASLEEP record is renewed with. -/
theorem startLease_effective (lease dflt : Half) : startLease (effectiveLease lease dflt) =
    if (if lease = 0#16 then dflt else lease) = 0#16 then none
    else some { remaining := if lease = 0#16 then dflt else lease, runOut := false } := rfl

theorem State.sleepCommanded_asleep {l : Option LeaseRun} (h : s.station i = some st) (hq : st.state = .asleep l) (lease : Half) :
    s.sleepCommanded i st lease =
      (s.setStation i { st with state := .asleep (startLease (effectiveLease lease st.defaultLease)) }, .ok) := by
  simp only [State.sleepCommanded, hq, State.setStationState_eq h]

theorem State.sleepCommanded_entering {o : SleepOrigin} (hq : st.state = .entering o) (lease : Half) :
    s.sleepCommanded i st lease = (s, .ok) := by simp only [State.sleepCommanded, hq]

theorem State.sleepCommanded_conflict (hq : (∃ cause held, st.state = .waking cause held) ∨ (∃ r cause, st.state = .leaving r cause) ∨
    st.state = .retiring) (lease : Half) : s.sleepCommanded i st lease = (s, .stateConflict) := by
  rcases hq with ⟨cause, held, hq⟩ | ⟨r, cause, hq⟩ | hq <;> simp only [State.sleepCommanded, hq]

theorem State.wakeCommanded_asleep {l : Option LeaseRun} (hq : st.state = .asleep l) :
    s.wakeCommanded i st = (s.wakeUp i st .command, .ok) := by simp only [State.wakeCommanded, hq]

theorem State.wakeCommanded_waking {cause : WakeCause} {held : Option (Fin 16)} (hq : st.state = .waking cause held) :
    s.wakeCommanded i st = (s, .ok) := by simp only [State.wakeCommanded, hq]

theorem State.wakeCommanded_conflict (hasleep : ∀ l, st.state ≠ .asleep l) (hwaking : ∀ cause held, st.state ≠ .waking cause held) :
    s.wakeCommanded i st = (s, .stateConflict) := by
  unfold State.wakeCommanded
  cases hq : st.state with
  | asleep l => exact absurd hq (hasleep l)
  | waking cause held => exact absurd hq (hwaking cause held)
  | _ => rfl

end

/-- Settles O22: the mode first, then the record's state. -/
theorem sleepAndWakeCommandsResult : Obligations.SleepAndWakeCommandsResult := by
  unfold Obligations.SleepAndWakeCommandsResult
  refine ⟨⟨fun s c h hslot hmode => ⟨_, exec_stationSleep h, rowResult_refused (runningHandleChecks_notRunning hslot hmode)⟩,
      fun s c i st lease h hresolves hmode hlease => ⟨_, exec_stationSleep h, ?sleep⟩⟩,
    fun s c h hslot hmode => ⟨_, exec_stationWake h, rowResult_refused (runningHandleChecks_notRunning hslot hmode)⟩,
    fun s c i st h hresolves hmode => ⟨_, exec_stationWake h, ?wake⟩⟩
  case sleep =>
    subst hlease
    have hpass := runningHandleChecks_pass (s := s) hresolves.1 hmode
    refine ⟨fun hasks => ⟨fun hlink => ?_, fun hlink ht => ?_, fun hlink ht => ?_⟩, fun ⟨o, hq⟩ => ?_, fun ⟨l, hq⟩ => ?_, fun hq => ?_⟩
    · refine rowResult_event_refused hpass (sleepEvent_eq hresolves ?_)
      rw [State.sleepCommanded_asks hasks, State.sleepCheck_linkDown hmode hlink]
      rfl
    · refine rowResult_event_refused hpass (sleepEvent_eq hresolves ?_)
      rw [State.sleepCommanded_asks hasks, State.sleepCheck_noTemplate hmode hlink ht]
      rfl
    · have hevent : sleepEvent s c = (s.enterSleep i st (.commanded (BitVec.ofNat 16 (Memory.field c 4 2))), reply .pending) :=
        sleepEvent_eq hresolves (by rw [State.sleepCommanded_asks hasks, State.sleepCheck_passes hmode hlink ht])
      rw [State.enterSleep_eq hresolves.2.2] at hevent
      rw [rowResult_event hpass hevent]
      exact ⟨rfl, State.onlyStation_of_setStation rfl, rfl, rfl⟩
    · exact rowResult_event_refused hpass (sleepEvent_eq hresolves (State.sleepCommanded_entering hq _))
    · rw [rowResult_event hpass (sleepEvent_eq hresolves (State.sleepCommanded_asleep hresolves.2.2 hq _))]
      exact ⟨rfl, s.setStation_onlyStation i _ c _, rfl⟩
    · exact rowResult_event_refused hpass (sleepEvent_eq hresolves (State.sleepCommanded_conflict hq _))
  case wake =>
    have hpass := runningHandleChecks_pass (s := s) hresolves.1 hmode
    refine ⟨fun ⟨l, hq⟩ => ?_, fun ⟨cause, held, hq⟩ => ?_, fun hasleep hwaking => ?_⟩
    · rw [rowResult_event hpass (wakeEvent_eq hresolves (State.wakeCommanded_asleep hq))]
      refine ⟨?_, State.beginsWaking_wakeUp rfl rfl rfl, ?_, ?_⟩ <;> rw [State.wakeUp_eq] <;> rfl
    · exact rowResult_event_refused hpass (wakeEvent_eq hresolves (State.wakeCommanded_waking hq))
    · exact rowResult_event_refused hpass (wakeEvent_eq hresolves (State.wakeCommanded_conflict hasleep hwaking))

/-! ### STATION_RETIRE -/

section
variable {s : State} {c : Memory} {i : Slot} {st : Station}

theorem exec_stationRetire (h : s.Latched 0x0B#8 c) :
    exec (.stationRetire .completion) s = .next (rowResult handleChecks retireEvent s c).drivePins :=
  latched_completes h (accepts := (· = 0x0B#8)) (by decide)

theorem retireEvent_eq (h : s.Resolves c i st) {u : State} {k : ResultCode} (hr : s.retire i st = (u, k)) :
    retireEvent s c = (u, reply k) := (h.handle _).trans (by rw [hr])

theorem State.retire_settled (hq : st.state = .awake ∨ st.state = .lapsed) : s.retire i st = (s.vacate i st, .ok) := by
  rcases hq with hq | hq <;> simp only [State.retire, hq]

theorem State.retire_asleep {l : Option LeaseRun} (h : s.station i = some st) (hq : st.state = .asleep l) :
    s.retire i st = ({ s.setStation i { st with state := .retiring } with steer := s.steer.withRequest .restore i st }, .pending) := by
  simp only [State.retire, hq, State.setStationState_eq h, State.place_eq]
  rfl

theorem State.retire_waking {cause : WakeCause} {held : Option (Fin 16)} (h : s.station i = some st)
    (hq : st.state = .waking cause held) : s.retire i st =
      ({ s.setStation i { st with state := .retiring } with
          wake := tset s.wake i none
          emit := s.emit.withdraw i st.address
          hold := (s.discardHeld held).hold
          steer := s.steer.withRequest .restore i st }, .pending) := by
  have hstation : (((s.cancelWaking i).withdrawWakes i st.address).discardHeld held).station i = some st := by
    rw [State.station_of_stab (s := s) (by simp), h]
  simp only [State.retire, hq, State.setStationState_eq hstation, State.place_eq]
  cases held <;> rfl

theorem State.retire_retiring (hq : st.state = .retiring) : s.retire i st = (s, .ok) := by simp only [State.retire, hq]

theorem State.retire_conflict (hq : (∃ o, st.state = .entering o) ∨ ∃ r cause, st.state = .leaving r cause) :
    s.retire i st = (s, .stateConflict) := by
  rcases hq with ⟨o, hq⟩ | ⟨r, cause, hq⟩ <;> simp only [State.retire, hq]

theorem State.discardHeld_hold (held : Option (Fin 16)) (b : Fin 16) :
    (s.discardHeld held).hold[b.val] = if held = some b then .free else s.hold[b.val] := by
  cases held with
  | none => rfl
  | some b' =>
    show (tset s.hold b' .free)[b.val] = _
    rw [tset_get]
    simp

theorem removeMapped_eq (idmap : List MapEntry) (segment : Segment) (listed : List ListedIdentifier) :
    removeMapped idmap segment listed =
      idmap.filter fun e => decide (¬ (e.segment = segment ∧ ∃ l ∈ listed, l.identifier = e.identifier)) := by
  refine List.filter_congr fun e _ => ?_
  rw [Bool.eq_iff_iff]
  simp only [Bool.not_eq_true', ← Bool.not_eq_true, Bool.and_eq_true, decide_eq_true_eq, List.any_eq_true]

end

/-- Settles O23: the record's state says whether it is vacated, retires, or refuses. -/
theorem stationRetireResult : Obligations.StationRetireResult := by
  unfold Obligations.StationRetireResult
  intro s c i st h hresolves
  have hpass := handleChecks_pass (s := s) hresolves.1
  have hst := hresolves.2.2
  refine ⟨_, exec_stationRetire h, fun hq => ?vacated, fun ⟨l, hq⟩ => ?asleep, fun cause held hq => ?waking, fun hq => ?retiring,
    fun hq => ?conflict⟩
  case vacated =>
    rw [rowResult_event hpass (retireEvent_eq hresolves (State.retire_settled hq))]
    obtain ⟨hstation, hgeneration⟩ := State.vacate_slots (s := s) (i := i) (st := st)
      (t := ((s.vacate i st).complete c (reply .ok)).drivePins) rfl
    refine ⟨rfl, hstation, hgeneration, removeMapped_eq _ _ _, fun hnodup n => ?_, rfl, rfl⟩
    exact lowerCounts_get st.rules s.rstore hnodup n
  case asleep =>
    rw [rowResult_event hpass (retireEvent_eq hresolves (State.retire_asleep hst hq))]
    exact ⟨rfl, State.onlyStation_of_setStation rfl, rfl, rfl⟩
  case waking =>
    rw [rowResult_event hpass (retireEvent_eq hresolves (State.retire_waking hst hq))]
    exact ⟨rfl, State.onlyStation_of_setStation rfl, rfl, rfl, s.emit.withdraw_eq i st.address, State.discardHeld_hold held, rfl⟩
  case retiring => exact rowResult_event_refused hpass (retireEvent_eq hresolves (State.retire_retiring hq))
  case conflict => exact rowResult_event_refused hpass (retireEvent_eq hresolves (State.retire_conflict hq))

/-! ### RULE_DEFINE and RULE_DELETE -/

/-- Spans in bounds that do not lie over one another, none before an offset, follow that offset. -/
theorem spansFollow_of {spans : List Span} {after : Nat}
    (hbounds : ∀ x ∈ spans, x.offset ≤ 1535 ∧ 1 ≤ x.length ∧ x.length ≤ 64 ∧ x.offset + x.length ≤ 1536)
    (hafter : ∀ x ∈ spans, after ≤ x.offset) (hpairs : spans.Pairwise fun x y => x.offset + x.length ≤ y.offset) :
    spansFollow after spans = true := by
  induction spans generalizing after with
  | nil => rfl
  | cons x rest ih =>
    obtain ⟨hx, hrest⟩ := List.forall_mem_cons.mp hbounds
    obtain ⟨hfirst, hpairs⟩ := List.pairwise_cons.mp hpairs
    simp only [spansFollow, Bool.and_eq_true, decide_eq_true_eq]
    exact ⟨⟨⟨⟨⟨hx.1, hx.2.1⟩, hx.2.2.1⟩, hx.2.2.2⟩, hafter x List.mem_cons_self⟩, ih hrest hfirst hpairs⟩

theorem spanArguments_length (c : Memory) (n : Nat) : (spanArguments c n).length = n := by simp [spanArguments]

/-- R60 for the spans a command gives, of a number in range. -/
theorem spansValid_arguments_iff {c : Memory} {n : Nat} (hlow : 1 ≤ n) (hhigh : n ≤ 8) :
    spansValid (spanArguments c n) = true ↔
      (∀ x ∈ spanArguments c n, x.offset ≤ 1535 ∧ 1 ≤ x.length ∧ x.length ≤ 64 ∧ x.offset + x.length ≤ 1536) ∧
        (spanArguments c n).Pairwise (fun x y => x.offset + x.length ≤ y.offset) ∧
        ((spanArguments c n).map (·.length)).sum ≤ 256 := by
  constructor
  · intro h
    obtain ⟨-, -, hbounds, hpairs, htotal⟩ := spansValid_sound h
    exact ⟨hbounds, hpairs, htotal⟩
  · rintro ⟨hbounds, hpairs, htotal⟩
    simp only [spansValid, spanArguments_length, Bool.and_eq_true, decide_eq_true_eq]
    exact ⟨⟨⟨hlow, hhigh⟩, spansFollow_of hbounds (fun _ _ => Nat.zero_le _) hpairs⟩, htotal⟩

theorem scopeOfByte_isNone (b : Byte) : (scopeOfByte b).isNone = true ↔ b ≠ 1#8 ∧ b ≠ 2#8 := by
  have hone : b = 1#8 ↔ b.toNat = 1 := ⟨fun h => by rw [h]; rfl, fun h => BitVec.eq_of_toNat_eq h⟩
  have htwo : b = 2#8 ↔ b.toNat = 2 := ⟨fun h => by rw [h]; rfl, fun h => BitVec.eq_of_toNat_eq h⟩
  rw [Ne, Ne, hone, htwo]
  unfold scopeOfByte
  split
  · next h => simp [h]
  · next h => simp [h]
  · next h1 h2 => simpa using ⟨h1, h2⟩

theorem scopeOfByte_number (scope : Scope) : scopeOfByte scope.number = some scope := by cases scope <;> rfl

section
variable {s : State} {c : Memory} {n : RuleNumber}

theorem exec_ruleDefine (h : s.Latched 0x20#8 c) :
    exec (.ruleDefine .completion) s = .next (rowResult defineChecks defineEvent s c).drivePins :=
  latched_completes h (accepts := (· = 0x20#8)) (by decide)

theorem exec_ruleDelete (h : s.Latched 0x21#8 c) :
    exec (.ruleDelete .completion) s = .next (rowResult ruleNumberChecks deleteEvent s c).drivePins :=
  latched_completes h (accepts := (· = 0x21#8)) (by decide)

theorem toNat_eq_zero_iff {b : Byte} : b = 0#8 ↔ b.toNat < 1 := by
  rw [Nat.lt_one_iff]
  exact ⟨fun h => by rw [h]; rfl, fun h => BitVec.eq_of_toNat_eq h⟩

theorem defineChecks_fail (h : 95 < ruleByte c ∨ (Memory.read c 3 ≠ 1#8 ∧ Memory.read c 3 ≠ 2#8) ∨
    ((Memory.read c 4).toNat < 1 ∨ 8 < (Memory.read c 4).toNat) ∨
    ¬ spansValid (spanArguments c (Memory.read c 4).toNat) = true) : defineChecks s c = some .badArgument := by
  refine firstFailed_of_all (by simp [ruleCheck]) ?_
  rcases h with h | h | h | h
  · exact ⟨_, List.mem_cons_self, decide_eq_true h⟩
  · exact ⟨_, List.mem_cons_of_mem _ List.mem_cons_self, (scopeOfByte_isNone _).mpr h⟩
  · exact ⟨_, List.mem_cons_of_mem _ (List.mem_cons_of_mem _ List.mem_cons_self),
      decide_eq_true (h.imp_left toNat_eq_zero_iff.mpr)⟩
  · exact ⟨_, List.mem_cons_of_mem _ (List.mem_cons_of_mem _ (List.mem_cons_of_mem _ List.mem_cons_self)), by simpa using h⟩

theorem defineChecks_pass (hn : n.val = ruleByte c) {scope : Scope} (hscope : scope.number = Memory.read c 3)
    (hlow : 1 ≤ (Memory.read c 4).toNat) (hhigh : (Memory.read c 4).toNat ≤ 8)
    (hvalid : spansValid (spanArguments c (Memory.read c 4).toNat) = true) : defineChecks s c = none := by
  refine firstFailed_none.mpr ?_
  simp only [List.forall_mem_cons]
  refine ⟨ruleCheck_passes hn, ?_, ?_, by simp [hvalid], by simp⟩
  · rw [← hscope, scopeOfByte_number]
    rfl
  · rw [decide_eq_false_iff_not, toNat_eq_zero_iff]
    omega

theorem defineEvent_eq (hn : n.val = ruleByte c) : defineEvent s c =
    guarded [(s.rstore[n.val].body.isSome, .ruleDefined)] s ({ s with rstore := tset s.rstore n (newRule c) }, reply .ok) :=
  withRule_eq hn

theorem deleteEvent_eq (hn : n.val = ruleByte c) : deleteEvent s c =
    guarded [(s.rstore[n.val].body.isNone, .ruleUndefined), (decide (0 < s.rstore[n.val].refCount), .ruleInUse)] s
      ({ s with rstore := tset s.rstore n { refCount := 0, body := none } }, reply .ok) := withRule_eq hn

theorem newRule_eq {scope : Scope} (hscope : scope.number = Memory.read c 3) : newRule c =
    { refCount := 0
      body := some { scope := scope, spans := spanArguments c (Memory.read c 4).toNat
                     digest := BitVec.ofNat 32 (Memory.field c 5 4) } } := by
  rw [newRule, ← hscope, scopeOfByte_number]
  rfl

theorem ruleNumberChecks_fail (h : 95 < ruleByte c) : ruleNumberChecks s c = some .badArgument :=
  firstFailed_cons_of (decide_eq_true h) _ _

theorem ruleNumberChecks_pass (hn : n.val = ruleByte c) : ruleNumberChecks s c = none :=
  firstFailed_none.mpr (List.forall_mem_singleton.mpr (ruleCheck_passes hn))

end

/-- Settles O24: the checks in their order, then the rule's place. -/
theorem ruleDefineDeleteResult : Obligations.RuleDefineDeleteResult := by
  unfold Obligations.RuleDefineDeleteResult
  refine ⟨fun s c spans h hspans => ?define, fun s c h => ?delete⟩
  case define =>
    subst hspans
    refine ⟨_, exec_ruleDefine h, fun hbad => rowResult_refused (defineChecks_fail ?_), fun n scope hn hscope hlow hhigh hbounds hpairs
      htotal => ?_⟩
    · by_cases hcount : (Memory.read c 4).toNat < 1 ∨ 8 < (Memory.read c 4).toNat
      · exact Or.inr (Or.inr (Or.inl hcount))
      · obtain ⟨hpos, hmax⟩ := not_or.mp hcount
        have hvalid := spansValid_arguments_iff (c := c) (Nat.le_of_not_lt hpos) (Nat.le_of_not_lt hmax)
        rcases hbad with hb | hb | hb | hb | hb
        · exact Or.inl hb
        · exact Or.inr (Or.inl hb)
        · exact absurd hb hpos
        · exact absurd hb hmax
        · exact Or.inr (Or.inr (Or.inr (mt hvalid.mp hb)))
    · have hvalid := (spansValid_arguments_iff hlow hhigh).mpr ⟨hbounds, hpairs, htotal⟩
      have hpass := defineChecks_pass (s := s) hn hscope hlow hhigh hvalid
      have hevent := defineEvent_eq (s := s) hn
      refine ⟨fun hdefined => ?_, fun hfree => ?_⟩
      · rw [guarded_cons_of (by simpa [Option.isSome_iff_ne_none] using hdefined)] at hevent
        exact rowResult_event_refused hpass hevent
      · rw [guarded_cons_of_not (by simpa using hfree), guarded_nil, newRule_eq hscope] at hevent
        rw [rowResult_event hpass hevent]
        refine ⟨rfl, fun m => ?_, rfl⟩
        exact (tset_get s.rstore n m _).trans (by simp only [eq_comm (a := n)])
  case delete =>
    refine ⟨_, exec_ruleDelete h, fun hbad => rowResult_refused (ruleNumberChecks_fail hbad), fun n hn => ?_⟩
    have hpass := ruleNumberChecks_pass (s := s) hn
    have hevent := deleteEvent_eq (s := s) hn
    refine ⟨fun hfree => ?_, fun hdefined hused => ?_, fun hdefined hunused => ?_⟩
    · rw [guarded_cons_of (by simpa using hfree)] at hevent
      exact rowResult_event_refused hpass hevent
    all_goals rw [guarded_cons_of_not (by simpa [Option.isSome_iff_ne_none] using hdefined)] at hevent
    · rw [guarded_cons_of (decide_eq_true hused)] at hevent
      exact rowResult_event_refused hpass hevent
    · rw [guarded_cons_of_not (decide_eq_false (by omega)), guarded_nil] at hevent
      rw [rowResult_event hpass hevent]
      refine ⟨rfl, fun m => ?_, rfl⟩
      exact (tset_get s.rstore n m _).trans (by simp only [eq_comm (a := n)])

end Sys2Proof.Machine
end

section
/-! PROOF. A transfer on the intake port, and the evaluation of rules: what the rows of the intake do to the slots (O27), and what a match is (O33). -/

namespace Sys2Proof.Machine

/-! ### The slots of the intake -/

theorem Icls.arriving_eq_some {c : Icls} {j : Fin 4} (h : c.slots[j.val] = .arriving) (hlow : ∀ k : Fin 4, k < j → c.slots[k.val] ≠ .arriving) :
    c.arriving = some j :=
  lowest_eq_some (decide_eq_true h) fun k hk => decide_eq_false (hlow k hk)

theorem Icls.arriving_eq_none {c : Icls} : c.arriving = none ↔ ∀ k : Fin 4, c.slots[k.val] ≠ .arriving := by
  simp [Icls.arriving, lowest_none]

theorem Icls.arriving_setSlot {c : Icls} (h : ∀ k : Fin 4, c.slots[k.val] ≠ .arriving) (j : Fin 4) :
    (c.setSlot j .arriving).arriving = some j := by
  refine Icls.arriving_eq_some (tset_get_self _ _ _) fun k hk => ?_
  simpa [Icls.setSlot, tset_get, (ne_of_gt hk : j ≠ k)] using h k

/-! ### Starting and ending a transfer -/

variable {s : State} {j : Fin 4}

theorem State.startArrival_starts (hmode : s.steer.mode = .running) (hfree : s.icls.slots[j.val] = .free)
    (hlow : ∀ k : Fin 4, k < j → s.icls.slots[k.val] ≠ .free) (hnone : ∀ k : Fin 4, s.icls.slots[k.val] ≠ .arriving) :
    s.startArrival = { s with icls := s.icls.setSlot j .arriving } := by
  have hslot : lowest IntakeSlot.isFree s.icls.slots = some j :=
    lowest_eq_some ((IntakeSlot.isFree_iff _).mpr hfree) fun k hk => by
      simpa using mt (IntakeSlot.isFree_iff _).mp (hlow k hk)
  have hready : (s.readyForFrames && s.icls.arriving.isNone) = true := by
    simp [s.readyForFrames_iff.mpr ⟨hmode, j, hfree⟩, Icls.arriving_eq_none.mpr hnone]
  simp only [State.startArrival, hready, hslot, if_true]

theorem State.startArrival_refused (h : (s.readyForFrames && s.icls.arriving.isNone) = false) : s.startArrival = s := by
  simp only [State.startArrival, h, Bool.false_eq_true, if_false]

theorem State.finishArrival_ends (h : s.icls.arriving = some j) (tag : IntakeTag) (bytes : List Byte) :
    s.finishArrival tag bytes = { s with icls := { s.icls with
      slots := tset s.icls.slots j (.received { tag := tag, bytes := bytes.take 1536, count := bytes.length })
      arrivals := s.icls.arrivals ++ [j] } } := by
  simp only [State.finishArrival, h]
  rfl

theorem State.finishArrival_of_none (h : s.icls.arriving = none) (tag : IntakeTag) (bytes : List Byte) : s.finishArrival tag bytes = s := by
  simp only [State.finishArrival, h]

theorem not_readyForFrames (h : s.steer.mode ≠ .running ∨ (∀ k : Fin 4, s.icls.slots[k.val] ≠ .free) ∨
    ∃ k : Fin 4, s.icls.slots[k.val] = .arriving) : (s.readyForFrames && s.icls.arriving.isNone) = false := by
  rw [← Bool.not_eq_true, Bool.and_eq_true, s.readyForFrames_iff, Option.isNone_iff_eq_none, Icls.arriving_eq_none]
  rintro ⟨⟨hmode, k, hfree⟩, hnone⟩
  rcases h with h | h | ⟨k', h⟩
  · exact h hmode
  · exact h k hfree
  · exact hnone k' h

/-- Settles O27: the start, the end and the whole transfer are the two operations above. -/
theorem frameArrivalResult : Obligations.FrameArrivalResult := by
  unfold Obligations.FrameArrivalResult
  refine ⟨fun s tag bytes j hmode hfree hlow hnone => ?starts, fun s tag bytes j hj hlow => ?ends, fun s tag bytes h => ?refused,
    fun s tag bytes hnone => ?nothing⟩
  case starts =>
    have hstart := State.startArrival_starts hmode hfree hlow hnone
    have hready : (s.readyForFrames && s.icls.arriving.isNone) = true := by
      simp [s.readyForFrames_iff.mpr ⟨hmode, j, hfree⟩, Icls.arriving_eq_none.mpr hnone]
    have harriving := Icls.arriving_setSlot hnone j
    have hwhole : s.startArrival.finishArrival tag bytes = { s with icls := { s.icls with
        slots := tset s.icls.slots j (.received { tag := tag, bytes := bytes.take 1536, count := bytes.length })
        arrivals := s.icls.arrivals ++ [j] } } := by
      rw [hstart, State.finishArrival_ends harriving]
      simp only [Icls.setSlot, tset_tset]
    refine ⟨(s.startArrival.finishArrival tag bytes).drivePins, s.startArrival.drivePins, ?_, rfl, ?_, ?_, ?_, ?_, ?_⟩
    · show execFrameArrival (.whole tag bytes) s = _
      simp only [execFrameArrival, hready, if_true]
      rfl
    · rw [hwhole, hstart]
      show settle (State.finishArrival _ tag bytes) = _
      rw [State.finishArrival_ends (j := j) (by exact harriving)]
      simp only [State.drivePins_icls, Icls.setSlot, tset_tset]
      rfl
    · rw [hstart]; rfl
    · rw [hwhole]; rfl
    · rw [hstart]; rfl
    · rw [hwhole]; rfl
  case ends =>
    refine ⟨(s.finishArrival tag bytes).drivePins, rfl, ?_, ?_⟩ <;>
      rw [State.finishArrival_ends (Icls.arriving_eq_some hj hlow)] <;> rfl
  case refused =>
    have hready := not_readyForFrames h
    refine ⟨s.drivePins, ?_, ?_, rfl⟩
    · show execFrameArrival (.whole tag bytes) s = _
      simp only [execFrameArrival, hready, Bool.false_eq_true, if_false]
      rfl
    · show settle s.startArrival = _
      rw [State.startArrival_refused hready]
      rfl
  case nothing =>
    refine ⟨s.drivePins, ?_, rfl⟩
    show settle (s.finishArrival tag bytes) = _
    rw [State.finishArrival_of_none (Icls.arriving_eq_none.mpr hnone)]
    rfl

/-! ### Rules against a frame (R61 to R64) -/

theorem Scope.admits_iff (scope : Scope) (reason : DeliveryReason) :
    scope.admits reason = true ↔ reason = .steered ∨ reason = .flood ∧ scope = .any := by
  cases reason <;> simp [Scope.admits]

theorem RuleBody.matchesFrame_iff (b : RuleBody) (frame : List Byte) : b.matchesFrame frame = true ↔
    (∀ x ∈ b.spans, x.offset + x.length ≤ frame.length) ∧ cyclicCheck (spanBytes frame b.spans) = b.digest := by
  simp [RuleBody.matchesFrame]

theorem ruleMatches_iff (rules : Vector Rule 96) (f : Frame) (n : RuleNumber) : ruleMatches rules f n = true ↔
    ∃ b, rules[n.val].body = some b ∧ (f.reason = .steered ∨ f.reason = .flood ∧ b.scope = .any) ∧
      (∀ x ∈ b.spans, x.offset + x.length ≤ f.bytes.length) ∧ cyclicCheck (spanBytes f.bytes b.spans) = b.digest := by
  unfold ruleMatches
  cases rules[n.val].body with
  | none => simp
  | some b => simp [Scope.admits_iff, RuleBody.matchesFrame_iff]

theorem evaluate_eq_some_iff (rules : Vector Rule 96) (list : List RuleNumber) (f : Frame) (n : RuleNumber) :
    evaluate rules list f = some n ↔ ∃ before after, list = before ++ n :: after ∧ (∀ m ∈ before, ruleMatches rules f m = false) ∧
      ruleMatches rules f n = true := by
  rw [evaluate, List.find?_eq_some_iff_append]
  constructor
  · rintro ⟨hn, before, after, heq, hbefore⟩
    exact ⟨before, after, heq, fun m hm => by simpa using hbefore m hm, hn⟩
  · rintro ⟨before, after, heq, hbefore, hn⟩
    exact ⟨hn, before, after, heq, fun m hm => by simpa using hbefore m hm⟩

theorem checkBit_eq (r : BitVec 32) (b : Bool) :
    checkBit r b = if (r.getLsbD 0 ^^ b) = true then (r >>> 1) ^^^ 0x82F63B78#32 else r >>> 1 := rfl

set_option maxRecDepth 20000 in
/-- R62: the check value of the nine digits, which fixes the polynomial, the order of the bits and the complement. -/
theorem cyclicCheck_digits :
    cyclicCheck [0x31#8, 0x32#8, 0x33#8, 0x34#8, 0x35#8, 0x36#8, 0x37#8, 0x38#8, 0x39#8] = 0xE3069283#32 := by decide

set_option maxRecDepth 4000 in
theorem cyclicCheck_zero : cyclicCheck [0x00#8] = 0x527D5351#32 := by decide

/-- Settles O33, from what a match and an evaluation are; the two check values are computed. -/
theorem ruleEvaluation : Obligations.RuleEvaluation := by
  unfold Obligations.RuleEvaluation
  exact ⟨ruleMatches_iff, evaluate_eq_some_iff, checkBit_eq, fun _ _ => rfl, fun _ => rfl, cyclicCheck_digits, cyclicCheck_zero⟩

end Sys2Proof.Machine
end

section
/-! PROOF. The first tests of a frame: its tag, its sighting, its announcement (O28); and test 5 of a steered frame (O30). -/

namespace Sys2Proof.Machine

/-! ### One test as a row -/

/-- A single test is one call of `classifyOnce`, whatever it leaves to make next. -/
theorem exec_oneTest (s : State) : exec (.frameClassification (.tests 1)) s = .next s.classifyOnce.drivePins := by
  show settle (State.classify 1 s) = _
  unfold State.classify
  simp only []
  split
  · rfl
  · unfold State.classify; rfl

/-! ### Test 1: the tag -/

theorem deliveryReason_eq_some {b : Byte} {reason : DeliveryReason}
    (h : reason = .steered ∧ b = 1#8 ∨ reason = .flood ∧ b = 2#8 ∨ reason = .direct ∧ b = 3#8) : deliveryReason b = some reason := by
  rcases h with ⟨rfl, rfl⟩ | ⟨rfl, rfl⟩ | ⟨rfl, rfl⟩ <;> rfl

theorem deliveryReason_eq_none {b : Byte} (h : b.toNat < 1 ∨ 3 < b.toNat) : deliveryReason b = none := by
  unfold deliveryReason
  split
  case h_4 => rfl
  all_goals omega

theorem Arrived.frame_eq_some {a : Arrived} {f : Frame} (hingress : f.ingress.toNat = a.tag.ingress.toNat)
    (hsegment : f.segment.toNat = a.tag.segment.toNat) (hbytes : f.bytes = a.bytes)
    (hreason : f.reason = .steered ∧ a.tag.reason = 1#8 ∨ f.reason = .flood ∧ a.tag.reason = 2#8 ∨
      f.reason = .direct ∧ a.tag.reason = 3#8)
    (hmin : 14 ≤ a.tag.length.toNat) (hmax : a.tag.length.toNat ≤ 1536) (hcount : a.count = a.tag.length.toNat) :
    a.frame = some f := by
  have hrange : a.tag.ingress.toNat ≤ 31 ∧ a.tag.segment.toNat ≤ 4095 ∧ Config.frameMin ≤ a.tag.length.toNat ∧
      a.tag.length.toNat ≤ Config.frameMax ∧ a.count = a.tag.length.toNat :=
    ⟨by have := f.ingress.isLt; omega, by have := f.segment.isLt; omega, hmin, hmax, hcount⟩
  unfold Arrived.frame
  simp only [deliveryReason_eq_some hreason, if_pos hrange]
  simp only [← hingress, ← hsegment, ← hbytes, BitVec.ofNat_toNat, BitVec.setWidth_eq]

theorem Arrived.frame_eq_none {a : Arrived} (h : 31 < a.tag.ingress.toNat ∨ 4095 < a.tag.segment.toNat ∨ a.tag.reason.toNat < 1 ∨
    3 < a.tag.reason.toNat ∨ a.tag.length.toNat < 14 ∨ 1536 < a.tag.length.toNat ∨ a.count ≠ a.tag.length.toNat) : a.frame = none := by
  unfold Arrived.frame
  split
  · rfl
  · next reason hr =>
    refine if_neg fun hrange => ?_
    obtain ⟨hi, hs, hmin, hmax, hcount⟩ := hrange
    by_cases hbad : a.tag.reason.toNat < 1 ∨ 3 < a.tag.reason.toNat
    · simp [deliveryReason_eq_none hbad] at hr
    · change 14 ≤ _ at hmin
      change _ ≤ 1536 at hmax
      omega

/-! ### Forms of frames, and the record a frame finds -/

variable {s : State} {f : Frame} {i : Slot} {st : Station}

theorem isAnnouncementForm_iff (s : State) (f : Frame) : isAnnouncementForm s.mport.settings f = true ↔ s.AnnouncementForm f := by
  simp [isAnnouncementForm, State.AnnouncementForm, and_assoc]

theorem isQueryForm_iff (s : State) (f : Frame) : isQueryForm s.mport.settings f.bytes = true ↔ s.QueryForm f := by
  simp [isQueryForm, State.QueryForm, and_assoc]

theorem Station.isAt_iff (st : Station) (f : Frame) : st.isAt f = true ↔ f.ingress = st.port ∧ f.segment = st.segment := by
  simp [Station.isAt]

theorem StationState.sightable_iff (q : StationState) : q.sightable = true ↔ (∃ l, q = .asleep l) ∨ (∃ cause held, q = .waking cause held) ∨
    (∃ cause, q = .leaving .exhausted cause) ∨ q = .lapsed := by
  cases q with
  | leaving reason cause => cases reason <;> simp [StationState.sightable]
  | _ => simp [StationState.sightable]

/-- A record found by address is refused whenever every record of that address is. -/
theorem State.findAddress_cases (s : State) (a : Address) : s.findAddress a = none ∨
    ∃ i st, s.findAddress a = some (i, st) ∧ s.station i = some st ∧ st.address = a := by
  cases h : s.findAddress a with
  | none => exact Or.inl rfl
  | some x => exact Or.inr ⟨x.1, x.2, rfl, State.findAddress_some h⟩

/-! ### Test 2: the sighting -/

theorem State.sightedBy_eq_some (hunique : s.AddressesUnique) (hst : s.station i = some st) (haddress : st.address = frameSource f.bytes)
    (hat : st.isAt f = true) (hform : ¬ s.AnnouncementForm f) (hsighted : st.state.sightable = true) : s.sightedBy f = some (i, st) := by
  rw [← isAnnouncementForm_iff] at hform
  simp only [State.sightedBy, hform, State.findAddress_eq_some hunique hst haddress, hat, hsighted, Bool.and_self, if_true,
    Bool.false_eq_true, if_false]

theorem State.sightedBy_eq_none (h : s.AnnouncementForm f ∨ ∀ i st, s.station i = some st → st.address = frameSource f.bytes →
    (st.isAt f && st.state.sightable) = false) : s.sightedBy f = none := by
  rw [← isAnnouncementForm_iff] at h
  unfold State.sightedBy
  split
  · rfl
  · next hform =>
    rcases s.findAddress_cases (frameSource f.bytes) with hnone | ⟨i, st, hfound, hst, haddress⟩
    · rw [hnone]
    · simp only [hfound, h.resolve_left hform i st hst haddress, Bool.false_eq_true, if_false]

theorem not_isAt_or_sightable (h : f.ingress ≠ st.port ∨ f.segment ≠ st.segment ∨ st.state = .awake ∨ (∃ o, st.state = .entering o) ∨
    (∃ cause, st.state = .leaving .confirmed cause) ∨ st.state = .retiring) : (st.isAt f && st.state.sightable) = false := by
  rw [Bool.and_eq_false_iff, ← Bool.not_eq_true, st.isAt_iff]
  rcases h with h | h | h | ⟨o, h⟩ | ⟨cause, h⟩ | h
  · exact Or.inl fun hat => h hat.1
  · exact Or.inl fun hat => h hat.2
  all_goals exact Or.inr (by rw [h]; rfl)

theorem DeliveryReason.afterSighting_eq {reason : DeliveryReason} {next : NextTest}
    (h : reason = .steered ∧ next = .probe ∨ reason = .flood ∧ next = .query ∨ reason = .direct ∧ next = .announcement) :
    reason.afterSighting = next := by
  rcases h with ⟨rfl, rfl⟩ | ⟨rfl, rfl⟩ | ⟨rfl, rfl⟩ <;> rfl

/-! ### Test 3: the announcement -/

theorem announceOp_eq_some {bytes : List Byte} {op : AnnounceOp}
    (h : op = .sleep ∧ byteAt bytes 14 = 1#8 ∨ op = .awake ∧ byteAt bytes 14 = 2#8) : announceOp bytes = some op := by
  unfold announceOp payloadOp
  rcases h with ⟨rfl, h⟩ | ⟨rfl, h⟩ <;> rw [h] <;> rfl

theorem announceOp_eq_none {bytes : List Byte} (h : byteAt bytes 14 ≠ 1#8 ∧ byteAt bytes 14 ≠ 2#8) : announceOp bytes = none := by
  obtain ⟨hsleep, hawake⟩ := h
  unfold announceOp payloadOp
  split
  case h_1 heq => exact absurd (BitVec.eq_of_toNat_eq heq) hsleep
  case h_2 heq => exact absurd (BitVec.eq_of_toNat_eq heq) hawake
  case h_3 => rfl

theorem recognised_eq_some {op : AnnounceOp} (hform : s.AnnouncementForm f) (hpart : s.mport.settings.partAddress ≠ 0#48)
    (hlength : 20 ≤ f.bytes.length) (hsource : isGroup (frameSource f.bytes) = false) (hop : announceOp f.bytes = some op) :
    recognised s.mport.settings f = some op := by
  rw [← isAnnouncementForm_iff] at hform
  simp [recognised, hform, hpart, hlength, hsource, hop]

theorem recognised_eq_none (h : ¬ s.AnnouncementForm f ∨ s.mport.settings.partAddress = 0#48 ∨ f.bytes.length < 20 ∨
    isGroup (frameSource f.bytes) = true ∨ byteAt f.bytes 14 ≠ 1#8 ∧ byteAt f.bytes 14 ≠ 2#8) :
    recognised s.mport.settings f = none := by
  rw [← isAnnouncementForm_iff] at h
  unfold recognised
  split
  · next hall =>
    simp only [Bool.and_eq_true, decide_eq_true_eq, Bool.not_eq_true'] at hall
    obtain ⟨⟨⟨hform, hpart⟩, hlength⟩, hsource⟩ := hall
    rcases h with h | h | h | h | h
    · exact absurd hform h
    · exact absurd h hpart
    · omega
    · simp [h] at hsource
    · exact announceOp_eq_none h
  · rfl

theorem State.announcer_eq_some (hunique : s.AddressesUnique) (hst : s.station i = some st) (haddress : st.address = frameSource f.bytes)
    (hat : st.isAt f = true) : s.announcer f = some (i, st) := by
  simp only [State.announcer, State.findAddress_eq_some hunique hst haddress, hat, if_true]

theorem State.announcer_eq_none (h : ∀ i st, s.station i = some st → st.address = frameSource f.bytes → st.isAt f = false) :
    s.announcer f = none := by
  unfold State.announcer
  rcases s.findAddress_cases (frameSource f.bytes) with hnone | ⟨i, st, hfound, hst, haddress⟩
  · rw [hnone]
  · simp only [hfound, h i st hst haddress, Bool.false_eq_true, if_false]

theorem State.testAnnouncement_ends (s : State) (j : Fin 4) (f : Frame) : s.Ends (s.testAnnouncement j f) j .free := by
  unfold State.testAnnouncement
  split
  · rfl
  · split <;> rfl

/-- Settles O28, test by test: what the tag, the search for the sender and the form of the payload decide. -/
theorem firstTestsResult : Obligations.FirstTestsResult := by
  unfold Obligations.FirstTestsResult
  refine ⟨fun s j rest a harrivals hslot => ?tag, fun s j f g next hc hunique hnext => ?sighting, fun s j f g hc hunique => ?announcement⟩
  case tag =>
    have hstep : s.classifyOnce = s.testTag j a := by simp only [State.classifyOnce, harrivals, hslot]
    refine ⟨_, exec_oneTest s, ?_, fun f hingress hsegment hbytes hreason hmin hmax hcount => ?_, fun hbad => ?_⟩ <;> rw [hstep]
    · unfold State.testTag
      split <;> rfl
    · simp only [State.testTag, Arrived.frame_eq_some hingress hsegment hbytes hreason hmin hmax hcount]
      rfl
    · simp only [State.testTag, Arrived.frame_eq_none hbad]
      rfl
  case sighting =>
    refine ⟨_, hc.once, fun i st hst haddress hport hsegment hform hstate => ?_, fun hnone => ?_⟩
    · have hsighted := State.sightedBy_eq_some hunique hst haddress ((st.isAt_iff f).mpr ⟨hport, hsegment⟩) hform
        ((StationState.sightable_iff _).mpr hstate)
      simp only [State.makeTest, State.testSighting, hsighted, DeliveryReason.afterSighting_eq hnext]
      exact ⟨rfl, rfl, rfl⟩
    · have hsighted := State.sightedBy_eq_none (hnone.imp_right fun h i st hst ha => not_isAt_or_sightable (h i st hst ha))
      simp only [State.makeTest, State.testSighting, hsighted, DeliveryReason.afterSighting_eq hnext]
      exact ⟨rfl, rfl⟩
  case announcement =>
    refine ⟨_, hc.once, State.testAnnouncement_ends s j f, fun hnone => ?_, fun op hform hpart hlength hsource hop =>
      ⟨fun i st hst haddress hport hsegment => ?_, fun hunknown => ?_⟩⟩
    · simp only [State.makeTest, State.testAnnouncement, recognised_eq_none hnone]
      rfl
    all_goals have hop := recognised_eq_some hform hpart hlength hsource (announceOp_eq_some hop)
    · have hat := State.announcer_eq_some hunique hst haddress ((st.isAt_iff f).mpr ⟨hport, hsegment⟩)
      simp only [State.makeTest, State.testAnnouncement, hop, hat]
      exact ⟨rfl, rfl⟩
    · have hat : s.announcer f = none := State.announcer_eq_none fun i st hst ha => by
        rw [← Bool.not_eq_true, st.isAt_iff]
        rintro ⟨hport, hsegment⟩
        exact (hunknown i st hst ha).elim (· hport) (· hsegment)
      simp only [State.makeTest, State.testAnnouncement, hop, hat]
      exact ⟨rfl, rfl⟩

end Sys2Proof.Machine
end

section
/-! PROOF. Queries and probes (O29), and test 5 of a steered frame (O30). -/

namespace Sys2Proof.Machine

variable {s : State} {f : Frame} {i : Slot} {st : Station}

/-! ### The lookup of a query (R54, R89) -/

theorem lookup_eq_none {idmap : List MapEntry} {id : Identifier} {segment : Segment}
    (h : ∀ e ∈ idmap, e.identifier = id → e.segment ≠ segment) : lookup idmap id segment = none := by
  refine List.find?_eq_none.mpr fun e he => ?_
  simpa using h e he

/-- With no key twice, the entry found is the entry there. -/
theorem lookup_eq_some {idmap : List MapEntry} (hkeys : (idmap.map MapEntry.key).Nodup) {e : MapEntry} (he : e ∈ idmap) :
    lookup idmap e.identifier e.segment = some e := by
  obtain ⟨x, hx⟩ : ∃ x, lookup idmap e.identifier e.segment = some x :=
    Option.isSome_iff_exists.mp (List.find?_isSome.mpr ⟨e, he, by simp⟩)
  have hmem := List.mem_of_find?_eq_some hx
  have hkey : x.identifier = e.identifier ∧ x.segment = e.segment := by simpa using List.find?_some hx
  rw [hx, List.inj_on_of_nodup_map hkeys hmem he (Prod.ext hkey.1 hkey.2)]

theorem queryGuard_iff (s : State) (f : Frame) {op : Byte} {n : Nat} (hn : op.toNat = n) :
    (isQueryForm s.mport.settings f.bytes && decide (payloadOp f.bytes = n) && !isGroup (querySender f.bytes)) = true ↔
      s.QueryForm f ∧ byteAt f.bytes 14 = op ∧ (querySender f.bytes).getLsbD 40 = false := by
  rw [Bool.and_eq_true, Bool.and_eq_true, isQueryForm_iff, and_assoc, decide_eq_true_eq, Bool.not_eq_true', payloadOp, ← hn, BitVec.toNat_inj]
  rfl

theorem State.testQuery_found (hform : s.QueryForm f) (hop : byteAt f.bytes 14 = 1#8) (hsender : (querySender f.bytes).getLsbD 40 = false)
    {e : MapEntry} (he : lookup s.idmap (queryTarget f.bytes) f.segment = some e) (g : Option Slot) :
    s.testQuery g f = s.nextTest g (.answer e.slot e.wakeOnQuery) := by
  simp only [State.testQuery]
  rw [if_pos ((queryGuard_iff s f (op := 1#8) (n := 1) rfl).mpr ⟨hform, hop, hsender⟩), he]

theorem State.testQuery_not_found (h : ¬ s.QueryForm f ∨ byteAt f.bytes 14 ≠ 1#8 ∨ (querySender f.bytes).getLsbD 40 = true ∨
    lookup s.idmap (queryTarget f.bytes) f.segment = none) (g : Option Slot) : s.testQuery g f = s.nextTest g (.flood 0) := by
  simp only [State.testQuery]
  split
  · next hguard =>
    obtain ⟨hform, hop, hsender⟩ := (queryGuard_iff s f (op := 1#8) rfl).mp hguard
    rcases h with h | h | h | h
    · exact absurd hform h
    · exact absurd hop h
    · rw [hsender] at h; cases h
    · rw [h]
  · rfl

theorem State.testQuery_changes_icls (s : State) (g : Option Slot) (f : Frame) : ({ s.testQuery g f with icls := s.icls } : State) = s := by
  unfold State.testQuery
  split
  · split <;> rfl
  · rfl

/-! ### The use of a lookup (R55, R90) -/

theorem State.useLookup_vacant (h : s.station i = none) (f : Frame) (flag : Bool) : s.useLookup f i flag = s := by
  simp only [State.useLookup, h]

theorem State.useLookup_ignored (hst : s.station i = some st) (h : st.address = querySender f.bytes ∨
    (∀ l, st.state ≠ .asleep l) ∧ (∀ cause held, st.state ≠ .waking cause held)) (flag : Bool) : s.useLookup f i flag = s := by
  simp only [State.useLookup, hst]
  split
  · rfl
  · next hother =>
    obtain ⟨hasleep, hwaking⟩ := h.resolve_left (Ne.symm hother)
    cases hq : st.state with
    | asleep l => exact absurd hq (hasleep l)
    | waking cause held => exact absurd hq (hwaking cause held)
    | _ => rfl

theorem State.useLookup_answers (hst : s.station i = some st) (hother : st.address ≠ querySender f.bytes)
    (h : (∃ l, st.state = .asleep l) ∨ ∃ cause held, st.state = .waking cause held) (flag : Bool) : s.useLookup f i flag =
      { s.handAnswer (replyJob f i st) with
        presented := s.presented ++ (if flag = true ∧ st.state.isAsleep = true then
          [{ slot := i, address := st.address, kind := .trigger (.query (queryTarget f.bytes)) none }] else []) } := by
  simp only [State.useLookup, hst, if_neg (Ne.symm hother)]
  rcases h with ⟨l, h⟩ | ⟨cause, held, h⟩
  · cases flag <;> simp [h, StationState.isAsleep, State.present, State.handAnswer]
  · simp [h, StationState.isAsleep, State.handAnswer]

theorem State.useLookup_icls (s : State) (f : Frame) (i : Slot) (flag : Bool) : (s.useLookup f i flag).icls = s.icls := by
  unfold State.useLookup
  split
  · rfl
  · split
    · rfl
    · split
      · cases flag <;> rfl
      all_goals rfl

/-! ### Probes (R91) -/

theorem StationState.answerCode_isSome_iff (q : StationState) :
    q.answerCode.isSome = true ↔ (∃ l, q = .asleep l) ∨ ∃ cause held, q = .waking cause held := by
  cases q <;> simp [StationState.answerCode]

theorem State.probed_eq_some (hunique : s.AddressesUnique) (hform : s.QueryForm f) (hop : byteAt f.bytes 14 = 3#8)
    (hsender : (querySender f.bytes).getLsbD 40 = false) (hst : s.station i = some st) (haddress : st.address = frameDestination f.bytes)
    (hother : querySender f.bytes ≠ st.address) (h : (∃ l, st.state = .asleep l) ∨ ∃ cause held, st.state = .waking cause held) :
    s.probed f = some (i, st) := by
  simp only [State.probed]
  rw [if_pos ((queryGuard_iff s f (op := 3#8) (n := 3) rfl).mpr ⟨hform, hop, hsender⟩), State.findAddress_eq_some hunique hst haddress]
  simp [hother, (StationState.answerCode_isSome_iff _).mpr h]

theorem State.probed_eq_none (h : ¬ s.QueryForm f ∨ byteAt f.bytes 14 ≠ 3#8 ∨ (querySender f.bytes).getLsbD 40 = true ∨
    (∀ i st, s.station i = some st → st.address = frameDestination f.bytes → querySender f.bytes = st.address ∨
      (∀ l, st.state ≠ .asleep l) ∧ ∀ cause held, st.state ≠ .waking cause held)) : s.probed f = none := by
  simp only [State.probed]
  split
  · next hguard =>
    obtain ⟨hform, hop, hsender⟩ := (queryGuard_iff s f (op := 3#8) rfl).mp hguard
    have hrecord := ((h.resolve_left (not_not_intro hform)).resolve_left (not_not_intro hop)).resolve_left (Bool.eq_false_iff.mp hsender)
    rcases s.findAddress_cases (frameDestination f.bytes) with hnone | ⟨i, st, hfound, hst, haddress⟩
    · rw [hnone]
    · simp only [hfound]
      refine if_neg fun hboth => ?_
      simp only [Bool.and_eq_true, decide_eq_true_eq, StationState.answerCode_isSome_iff] at hboth
      obtain ⟨hcode, hother⟩ := hboth
      obtain ⟨hasleep, hwaking⟩ := (hrecord i st hst haddress).resolve_left hother
      rcases hcode with ⟨l, hq⟩ | ⟨cause, held, hq⟩
      · exact hasleep l hq
      · exact hwaking cause held hq
  · rfl

/-- Settles O29: the guard of a query, then the entry of the map or the record found. -/
theorem answerTestsResult : Obligations.AnswerTestsResult := by
  unfold Obligations.AnswerTestsResult
  refine ⟨⟨fun s j f g hc hkeys => ?query, fun s j f g i flag hc => ?use⟩, fun s j f g hc hunique => ?probe⟩
  case query =>
    refine ⟨_, hc.once, ?_, fun hnone => ?_, fun e he hid hsegment hform hop hsender => ?_⟩
    · calc
        _ = ({ s.testQuery g f with icls := s.icls } : State).withPinsOf s := rfl
        _ = s := by rw [State.testQuery_changes_icls]; rfl
    · have hlookup := hnone.imp_right (Or.imp_right (Or.imp_right lookup_eq_none))
      simp only [State.makeTest, State.testQuery_not_found hlookup]
      rfl
    · have hlookup := lookup_eq_some hkeys he
      rw [hid, hsegment] at hlookup
      simp only [State.makeTest, State.testQuery_found hform hop hsender hlookup]
      rfl
  case use =>
    refine ⟨_, hc.once, ?_, fun hvacant => ?_, fun st hst => ⟨fun hignored => ?_, fun hother hstate => ?_⟩⟩
    · simp only [State.GoesOn, State.makeTest, State.drivePins_icls, State.nextTest_icls, State.useLookup_icls]
    · simp only [State.makeTest, State.useLookup_vacant hvacant]
      rfl
    · simp only [State.makeTest, State.useLookup_ignored hst hignored]
      rfl
    · simp only [State.makeTest, State.useLookup_answers hst hother hstate]
      exact ⟨rfl, rfl, rfl⟩
  case probe =>
    refine ⟨_, hc.once, fun i st hform hop hsender hst haddress hother hstate => ?_, fun hnone => ?_⟩
    · simp only [State.makeTest, State.testProbe, State.probed_eq_some hunique hform hop hsender hst haddress hother hstate]
      exact ⟨rfl, rfl, rfl⟩
    · simp only [State.makeTest, State.testProbe, State.probed_eq_none hnone]
      exact ⟨rfl, rfl⟩

/-! ### Test 5 (R92 to R94) -/

theorem State.passFrame_passes (hroom : s.emit.size < 16) (j : Fin 4) (f : Frame) (i : Slot) (st : Station) :
    s.passFrame j f i st = State.endFrame { s with
      emit := { s.emit with waiting := s.emit.waiting ++ [{ kind := .pass j, port := st.port, segment := st.segment }] }
      icls := { s.icls with slots := tset s.icls.slots j (.passing f) } } j (.passing f) := by
  have hroom : s.emit.size < Config.emissionCapacity := hroom
  simp only [State.passFrame, State.passThrough, Emit.append, if_pos hroom]

theorem State.passFrame_sheds (hfull : 16 ≤ s.emit.size) (j : Fin 4) (f : Frame) (i : Slot) (st : Station) :
    s.passFrame j f i st = s.shedFrame j i st := by
  have hfull : ¬ s.emit.size < Config.emissionCapacity := Nat.not_lt_of_le hfull
  simp only [State.passFrame, State.passThrough, Emit.append, if_neg hfull]

theorem State.testSteered_stray (h : s.findAddress (frameDestination f.bytes) = none) (j : Fin 4) : s.testSteered j f = s.endFrame j .free := by
  simp only [State.testSteered, h]

section
variable (hfound : s.findAddress (frameDestination f.bytes) = some (i, st))
include hfound

theorem State.testSteered_triggers (hq : ∃ l, st.state = .asleep l) {n : RuleNumber} (hn : evaluate s.rstore st.rules f = some n)
    (j : Fin 4) : s.testSteered j f = (s.present i st.address (.trigger (.rule n) (some j))).endFrame j (.triggered f) := by
  obtain ⟨l, hq⟩ := hq
  simp only [State.testSteered, hfound, hq, hn]

theorem State.testSteered_asleep_sheds (hq : ∃ l, st.state = .asleep l) (hn : evaluate s.rstore st.rules f = none) (j : Fin 4) :
    s.testSteered j f = s.shedFrame j i st := by
  obtain ⟨l, hq⟩ := hq
  simp only [State.testSteered, hfound, hq, hn]

theorem State.testSteered_waking (hq : ∃ cause held, st.state = .waking cause held) (j : Fin 4) : s.testSteered j f = s.shedFrame j i st := by
  obtain ⟨cause, held, hq⟩ := hq
  simp only [State.testSteered, hfound, hq]

theorem State.testSteered_passes (hasleep : ∀ l, st.state ≠ .asleep l) (hwaking : ∀ cause held, st.state ≠ .waking cause held) (j : Fin 4) :
    s.testSteered j f = s.passFrame j f i st := by
  simp only [State.testSteered, hfound]
  cases hq : st.state with
  | asleep l => exact absurd hq (hasleep l)
  | waking cause held => exact absurd hq (hwaking cause held)
  | _ => rfl

/-- Every frame the record cannot take now is shed. -/
theorem State.testSteered_sheds (h : (∃ l, st.state = .asleep l) ∧ (∀ n ∈ st.rules, ruleMatches s.rstore f n = false) ∨
    (∃ cause held, st.state = .waking cause held) ∨ (∀ l, st.state ≠ .asleep l) ∧ 16 ≤ s.emit.size) (j : Fin 4) :
    s.testSteered j f = s.shedFrame j i st := by
  rcases h with ⟨hq, hrules⟩ | hq | ⟨hasleep, hfull⟩
  · exact State.testSteered_asleep_sheds hfound hq (List.find?_eq_none.mpr fun n hn => by simpa using hrules n hn) j
  · exact State.testSteered_waking hfound hq j
  · by_cases hwaking : ∃ cause held, st.state = .waking cause held
    · exact State.testSteered_waking hfound hwaking j
    · rw [State.testSteered_passes hfound hasleep (fun cause held hq => hwaking ⟨cause, held, hq⟩), State.passFrame_sheds hfull]

end

/-- Settles O30: the record the frame is for decides between the trigger, the shed and the pass-through. -/
theorem steeredTest : Obligations.SteeredTest := by
  unfold Obligations.SteeredTest
  refine fun s j f g hc hunique => ⟨_, hc.once, fun hstray => ?_, fun i st hst haddress => ⟨fun n hq hmatch => ?_, fun hshed => ?_,
    fun hasleep hwaking hroom => ?_⟩⟩
  · rw [State.makeTest, State.testSteered_stray (State.findAddress_eq_none hstray)]
    exact ⟨rfl, rfl⟩
  all_goals have hfound := State.findAddress_eq_some hunique hst haddress
  · rw [State.makeTest, State.testSteered_triggers hfound hq ((evaluate_eq_some_iff _ _ _ _).mpr hmatch)]
    exact ⟨rfl, rfl, rfl⟩
  · rw [State.makeTest, State.testSteered_sheds hfound hshed]
    exact ⟨rfl, rfl, rfl⟩
  · rw [State.makeTest, State.testSteered_passes hfound hasleep hwaking, State.passFrame_passes hroom]
    exact ⟨congrArg (fun slots => (⟨slots, s.icls.arrivals.tail, none⟩ : Icls)) (tset_tset _ _ _ _), rfl, rfl⟩

end Sys2Proof.Machine
end

section
/-! PROOF. The classification of a frame as a whole: it is its single tests in order, it ends within 70 of them (O32), and test 6 visits every record (O31). -/

namespace Sys2Proof.Machine

/-! ### No test looks at the pins -/

theorem State.testTag_pins (s u : State) (j : Fin 4) (a : Arrived) : (s.withPinsOf u).testTag j a = (s.testTag j a).withPinsOf u := by
  unfold State.testTag; split <;> rfl

theorem State.testSighting_pins (s u : State) (f : Frame) : (s.withPinsOf u).testSighting f = (s.testSighting f).withPinsOf u := by
  simp only [State.testSighting, show (s.withPinsOf u).sightedBy f = s.sightedBy f from rfl]
  split <;> rfl

theorem State.testAnnouncement_pins (s u : State) (j : Fin 4) (f : Frame) :
    (s.withPinsOf u).testAnnouncement j f = (s.testAnnouncement j f).withPinsOf u := by
  simp only [State.testAnnouncement, show (s.withPinsOf u).mport = s.mport from rfl, show (s.withPinsOf u).announcer f = s.announcer f from rfl]
  split
  · rfl
  · split <;> rfl

theorem State.testQuery_pins (s u : State) (g : Option Slot) (f : Frame) :
    (s.withPinsOf u).testQuery g f = (s.testQuery g f).withPinsOf u := by
  simp only [State.testQuery, show (s.withPinsOf u).mport = s.mport from rfl, show (s.withPinsOf u).idmap = s.idmap from rfl]
  split
  · split <;> rfl
  · rfl

theorem State.useLookup_pins (s u : State) (f : Frame) (i : Slot) (flag : Bool) :
    (s.withPinsOf u).useLookup f i flag = (s.useLookup f i flag).withPinsOf u := by
  simp only [State.useLookup, show (s.withPinsOf u).station i = s.station i from rfl]
  split
  · rfl
  · split
    · rfl
    · split
      · cases flag <;> rfl
      all_goals rfl

theorem State.testProbe_pins (s u : State) (j : Fin 4) (g : Option Slot) (f : Frame) :
    (s.withPinsOf u).testProbe j g f = (s.testProbe j g f).withPinsOf u := by
  simp only [State.testProbe, show (s.withPinsOf u).probed f = s.probed f from rfl]
  split <;> rfl

theorem State.passFrame_pins (s u : State) (j : Fin 4) (f : Frame) (i : Slot) (st : Station) :
    (s.withPinsOf u).passFrame j f i st = (s.passFrame j f i st).withPinsOf u := by
  simp only [State.passFrame, State.passThrough, show (s.withPinsOf u).emit = s.emit from rfl]
  cases s.emit.append { kind := .pass j, port := st.port, segment := st.segment } <;> rfl

theorem State.testSteered_pins (s u : State) (j : Fin 4) (f : Frame) :
    (s.withPinsOf u).testSteered j f = (s.testSteered j f).withPinsOf u := by
  simp only [State.testSteered, State.passFrame_pins, show (s.withPinsOf u).rstore = s.rstore from rfl,
    show ∀ a, (s.withPinsOf u).findAddress a = s.findAddress a from fun _ => rfl]
  split
  · rfl
  · split
    · split <;> rfl
    all_goals rfl

theorem State.floodAt_pins (s u : State) (g : Option Slot) (f : Frame) (i : Slot) :
    (s.withPinsOf u).floodAt g f i = (s.floodAt g f i).withPinsOf u := by
  simp only [State.floodAt, show (s.withPinsOf u).rstore = s.rstore from rfl, show (s.withPinsOf u).station i = s.station i from rfl]
  split
  · rfl
  · split
    · split <;> rfl
    · rfl

theorem State.testFlood_pins (s u : State) (j : Fin 4) (g : Option Slot) (f : Frame) (k : Nat) :
    (s.withPinsOf u).testFlood j g f k = (s.testFlood j g f k).withPinsOf u := by
  simp only [State.testFlood, State.floodAt_pins]
  split
  · split <;> rfl
  · rfl

theorem State.makeTest_pins (s u : State) (j : Fin 4) (f : Frame) (c : Classification) :
    (s.withPinsOf u).makeTest j f c = (s.makeTest j f c).withPinsOf u := by
  unfold State.makeTest
  split
  · exact s.testSighting_pins u f
  · exact s.testAnnouncement_pins u j f
  · exact s.testQuery_pins u _ f
  · rw [State.useLookup_pins]; rfl
  · exact s.testProbe_pins u j _ f
  · exact s.testSteered_pins u j f
  · exact s.testFlood_pins u j _ f _

theorem State.classifyOnce_pins (s u : State) : (s.withPinsOf u).classifyOnce = s.classifyOnce.withPinsOf u := by
  simp only [State.classifyOnce, State.makeTest_pins, State.testTag_pins, show (s.withPinsOf u).icls = s.icls from rfl]
  split
  · rfl
  · next j _ _ => cases s.icls.slots[j.val] <;> rfl

theorem State.classify_succ (n : Nat) (s : State) :
    State.classify (n + 1) s = if s.classifyOnce.icls.current = none then s.classifyOnce else State.classify n s.classifyOnce := by
  rw [State.classify]
  simp only [Option.isNone_iff_eq_none]

theorem State.classify_pins (n : Nat) (s u : State) : State.classify n (s.withPinsOf u) = (State.classify n s).withPinsOf u := by
  induction n generalizing s with
  | zero => rfl
  | succ n ih =>
    rw [State.classify_succ, State.classify_succ, State.classifyOnce_pins, ih, show (s.classifyOnce.withPinsOf u).icls = s.classifyOnce.icls from rfl]
    split <;> rfl

/-! ### How many tests are left -/

/-- A bound on the tests a frame still meets: test 6 is one at each record. -/
def NextTest.left : NextTest → Nat
  | .sighting => 68
  | .announcement => 1
  | .query => 67
  | .answer _ _ => 66
  | .probe => 2
  | .steered => 1
  | .flood k => 64 - k + 1

theorem NextTest.left_pos (n : NextTest) : 1 ≤ n.left := by
  cases n <;> simp [NextTest.left]

theorem NextTest.left_le (n : NextTest) : n.left ≤ 68 := by
  cases n <;> simp only [NextTest.left] <;> omega

theorem DeliveryReason.afterSighting_left (reason : DeliveryReason) : reason.afterSighting.left < NextTest.sighting.left := by
  cases reason <;> decide

/-- Where a test leads: the frame goes on to a test nearer its end, or its classification ends. -/
def State.TestLeads (s t : State) (j : Fin 4) (left : Nat) : Prop :=
  (∃ g next, s.GoesOn t g next ∧ next.left < left) ∨ ∃ x, s.Ends t j x

theorem State.testSighting_leads (s : State) (j : Fin 4) (f : Frame) : s.TestLeads (s.testSighting f) j NextTest.sighting.left := by
  unfold State.testSighting
  split
  all_goals exact Or.inl ⟨_, _, rfl, f.reason.afterSighting_left⟩

theorem State.testQuery_leads (s : State) (j : Fin 4) (g : Option Slot) (f : Frame) : s.TestLeads (s.testQuery g f) j NextTest.query.left := by
  unfold State.testQuery
  split
  · split
    · exact Or.inl ⟨_, _, rfl, Nat.lt_succ_self 66⟩
    · exact Or.inl ⟨_, _, rfl, by decide⟩
  · exact Or.inl ⟨_, _, rfl, by decide⟩

theorem State.testProbe_leads (s : State) (j : Fin 4) (g : Option Slot) (f : Frame) : s.TestLeads (s.testProbe j g f) j NextTest.probe.left := by
  unfold State.testProbe
  split
  · exact Or.inr ⟨_, rfl⟩
  · exact Or.inl ⟨_, _, rfl, by decide⟩

theorem State.passFrame_ends (s : State) (j : Fin 4) (f : Frame) (i : Slot) (st : Station) : ∃ x, s.Ends (s.passFrame j f i st) j x := by
  by_cases hroom : s.emit.size < 16
  · rw [State.passFrame_passes hroom]
    exact ⟨_, congrArg (fun slots => (⟨slots, s.icls.arrivals.tail, none⟩ : Icls)) (tset_tset _ _ _ _)⟩
  · rw [State.passFrame_sheds (Nat.le_of_not_lt hroom)]
    exact ⟨_, rfl⟩

theorem State.testSteered_ends (s : State) (j : Fin 4) (f : Frame) : ∃ x, s.Ends (s.testSteered j f) j x := by
  unfold State.testSteered
  split
  · exact ⟨_, rfl⟩
  · split
    · split <;> exact ⟨_, rfl⟩
    · exact ⟨_, rfl⟩
    all_goals exact s.passFrame_ends j f _ _

theorem State.floodAt_icls (s : State) (g : Option Slot) (f : Frame) (i : Slot) : (s.floodAt g f i).icls = s.icls := by
  unfold State.floodAt
  split
  · rfl
  · split
    · split <;> rfl
    · rfl

theorem State.testFlood_leads (s : State) (j : Fin 4) (g : Option Slot) (f : Frame) (k : Nat) :
    s.TestLeads (s.testFlood j g f k) j (NextTest.flood k).left := by
  simp only [State.testFlood]
  split
  · split
    · refine Or.inl ⟨g, .flood (k + 1), ?_, ?_⟩
      · simp only [State.GoesOn, State.nextTest_icls, State.floodAt_icls]
      · simp only [NextTest.left]; omega
    · exact Or.inr ⟨.free, by simp only [State.Ends, State.endFrame_icls, State.floodAt_icls]⟩
  · exact Or.inr ⟨_, rfl⟩

theorem State.makeTest_leads (s : State) (j : Fin 4) (f : Frame) (c : Classification) : s.TestLeads (s.makeTest j f c) j c.next.left := by
  obtain ⟨next, g⟩ := c
  cases next with
  | sighting => exact s.testSighting_leads j f
  | announcement => exact Or.inr ⟨_, s.testAnnouncement_ends j f⟩
  | query => exact s.testQuery_leads j g f
  | answer i flag => exact Or.inl ⟨g, .flood 0, by simp only [State.GoesOn, State.makeTest, State.nextTest_icls, State.useLookup_icls],
    Nat.lt_succ_self 65⟩
  | probe => exact s.testProbe_leads j g f
  | steered => exact Or.inr (s.testSteered_ends j f)
  | flood k => exact s.testFlood_leads j g f k

/-- The oldest arrival waits in slot `j` for its classification, with at most `left` tests to meet. -/
def State.Waits (s : State) (j : Fin 4) (left : Nat) : Prop :=
  s.icls.arrivals.head? = some j ∧ ((∃ a, s.icls.slots[j.val] = .received a ∧ left = 69) ∨
    ∃ f, s.icls.slots[j.val] = .unclassified f ∧ left = (s.icls.current.getD { next := .sighting, sighted := none }).next.left)

/-- The classification of the frame in slot `j` has ended, and the other slots are as before. -/
def State.Classified (s t : State) (j : Fin 4) : Prop :=
  t.icls.current = none ∧ t.icls.arrivals = s.icls.arrivals.tail ∧ ∀ k : Fin 4, k ≠ j → t.icls.slots[k.val] = s.icls.slots[k.val]

theorem State.Waits.pos {s : State} {j : Fin 4} {left : Nat} (h : s.Waits j left) : 1 ≤ left := by
  obtain ⟨-, ⟨a, -, rfl⟩ | ⟨f, -, rfl⟩⟩ := h
  · decide
  · exact NextTest.left_pos _

theorem State.Waits.le {s : State} {j : Fin 4} {left : Nat} (h : s.Waits j left) : left ≤ 69 := by
  obtain ⟨-, ⟨a, -, rfl⟩ | ⟨f, -, rfl⟩⟩ := h
  · exact Nat.le_refl _
  · exact Nat.le_succ_of_le (NextTest.left_le _)

theorem State.Ends.classified {s t : State} {j : Fin 4} {x : IntakeSlot} (h : s.Ends t j x) : s.Classified t j := by
  unfold State.Ends at h
  rw [State.Classified, h]
  exact ⟨rfl, rfl, fun k hk => tset_get_ne _ _ (Ne.symm hk)⟩

/-- A test at a waiting frame ends its classification, or leaves it waiting with fewer tests to meet. -/
theorem State.Waits.step {s : State} {j : Fin 4} {left : Nat} (h : s.Waits j left) : s.Classified s.classifyOnce j ∨
    ∃ less, less < left ∧ s.classifyOnce.Waits j less ∧ s.classifyOnce.icls.current ≠ none ∧
      s.classifyOnce.icls.arrivals = s.icls.arrivals ∧ ∀ k : Fin 4, k ≠ j → s.classifyOnce.icls.slots[k.val] = s.icls.slots[k.val] := by
  obtain ⟨hhead, hslot⟩ := h
  obtain ⟨rest, harrivals⟩ : ∃ rest, s.icls.arrivals = j :: rest := List.head?_eq_some_iff.mp hhead
  rcases hslot with ⟨a, hslot, rfl⟩ | ⟨f, hslot, rfl⟩
  · have hstep : s.classifyOnce = s.testTag j a := by simp only [State.classifyOnce, harrivals, hslot]
    rw [hstep, State.testTag]
    split
    · next f _ =>
      exact Or.inr ⟨68, by decide, ⟨hhead, Or.inr ⟨f, tset_get_self _ _ _, rfl⟩⟩, Option.some_ne_none _, rfl,
        fun k hk => tset_get_ne _ _ (Ne.symm hk)⟩
    · exact Or.inl (State.Ends.classified (x := .free) rfl)
  · have hstep : s.classifyOnce = s.makeTest j f (s.icls.current.getD { next := .sighting, sighted := none }) := by
      simp only [State.classifyOnce, harrivals, hslot]
    rw [hstep]
    rcases s.makeTest_leads j f (s.icls.current.getD { next := .sighting, sighted := none }) with ⟨g, next, hgoes, hless⟩ | ⟨x, hends⟩
    · rw [State.GoesOn] at hgoes
      refine Or.inr ⟨_, hless, ?_⟩
      rw [State.Waits, hgoes]
      exact ⟨⟨hhead, Or.inr ⟨f, hslot, rfl⟩⟩, Option.some_ne_none _, rfl, fun _ _ => rfl⟩
    · exact Or.inl hends.classified

/-- With enough tests the classification of a waiting frame ends. -/
theorem State.Waits.classified {s : State} {j : Fin 4} {left n : Nat} (h : s.Waits j left) (hn : left ≤ n) :
    s.Classified (State.classify n s) j := by
  induction n generalizing s left with
  | zero => exact absurd h.pos (by omega)
  | succ n ih =>
    rw [State.classify_succ]
    rcases h.step with hend | ⟨less, hless, hwaits, hcurrent, harrivals, hslots⟩
    · rw [if_pos hend.1]
      exact hend
    · rw [if_neg hcurrent]
      obtain ⟨hcurrent, hrest, hkept⟩ := ih hwaits (by omega)
      exact ⟨hcurrent, hrest.trans (congrArg _ harrivals), fun k hk => (hkept k hk).trans (hslots k hk)⟩

/-- More tests than a waiting frame meets make no difference. -/
theorem State.Waits.classify_add {s : State} {j : Fin 4} {left n : Nat} (h : s.Waits j left) (hn : left ≤ n) (m : Nat) :
    State.classify (n + m) s = State.classify n s := by
  induction n generalizing s left with
  | zero => exact absurd h.pos (by omega)
  | succ n ih =>
    rw [Nat.add_right_comm, State.classify_succ, State.classify_succ]
    rcases h.step with hend | ⟨less, hless, hwaits, hcurrent, -, -⟩
    · rw [if_pos hend.1, if_pos hend.1]
    · rw [if_neg hcurrent, if_neg hcurrent]
      exact ih hwaits (by omega)

/-- With no frame waiting a test does nothing. -/
theorem State.classifyOnce_idle {s : State} (h : ∀ j left, ¬ s.Waits j left) : s.classifyOnce = s := by
  unfold State.classifyOnce
  split
  · rfl
  · next j rest harrivals =>
    have hhead : s.icls.arrivals.head? = some j := by rw [harrivals]; rfl
    split
    · next a hslot => exact absurd ⟨hhead, Or.inl ⟨a, hslot, rfl⟩⟩ (h j 69)
    · next f hslot => exact absurd ⟨hhead, Or.inr ⟨f, hslot, rfl⟩⟩ (h j _)
    all_goals rfl

theorem State.classify_idle {s : State} (h : ∀ j left, ¬ s.Waits j left) (n : Nat) : State.classify n s = s := by
  induction n with
  | zero => rfl
  | succ n ih =>
    rw [State.classify_succ, State.classifyOnce_idle h, ih]
    exact ite_self _

theorem State.classify_enough (s : State) {n : Nat} (hn : 70 ≤ n) : State.classify n s = State.classify 70 s := by
  by_cases h : ∃ j left, s.Waits j left
  · obtain ⟨j, left, h⟩ := h
    rw [← Nat.add_sub_cancel' hn]
    exact h.classify_add (Nat.le_succ_of_le h.le) _
  · have hidle : ∀ j left, ¬ s.Waits j left := fun j left hw => h ⟨j, left, hw⟩
    rw [State.classify_idle hidle, State.classify_idle hidle]

/-- Settles O32: the tests one after another are `classify` unfolded, and a waiting frame meets at most 69 of them. -/
theorem classificationEnds : Obligations.ClassificationEnds := by
  unfold Obligations.ClassificationEnds
  refine ⟨fun s t n hstep hcurrent => ?next, fun s t n hstep hcurrent => ?last, fun s n hn => ?enough,
    fun s j rest harrivals hslot => ?ends, fun s harrivals => ?none⟩
  case next =>
    rw [exec_oneTest] at hstep
    cases hstep
    rw [State.drivePins_icls] at hcurrent
    show settle (State.classify (n + 1) s) = settle (State.classify n (s.classifyOnce.withPinsOf s.classifyOnce.drivePins))
    rw [State.classify_succ, if_neg hcurrent]
    exact (settle_of_pins (State.classify_pins n _ _)).symm
  case last =>
    rw [exec_oneTest] at hstep
    cases hstep
    rw [State.drivePins_icls] at hcurrent
    show settle (State.classify (n + 1) s) = _
    rw [State.classify_succ, if_pos hcurrent]
    rfl
  case enough =>
    show settle (State.classify 70 s) = settle (State.classify n s)
    rw [s.classify_enough hn]
  case ends =>
    have hwaits : ∃ left, s.Waits j left := by
      have hhead : s.icls.arrivals.head? = some j := by rw [harrivals]; rfl
      rcases hslot with ⟨a, ha⟩ | ⟨f, hf⟩
      · exact ⟨69, hhead, Or.inl ⟨a, ha, rfl⟩⟩
      · exact ⟨_, hhead, Or.inr ⟨f, hf, rfl⟩⟩
    obtain ⟨left, hwaits⟩ := hwaits
    obtain ⟨hcurrent, hrest, hslots⟩ := hwaits.classified (n := 70) (Nat.le_succ_of_le hwaits.le)
    exact ⟨_, rfl, hcurrent, hrest.trans (congrArg List.tail harrivals), hslots⟩
  case none =>
    have hidle : ∀ j left, ¬ s.Waits j left := by
      rintro j left ⟨hhead, -⟩
      rw [harrivals] at hhead
      cases hhead
    refine ⟨s.drivePins, ?_, rfl⟩
    show settle (State.classify 70 s) = _
    rw [State.classify_idle hidle]
    rfl

/-! ### Test 6 at every record (R67, R95) -/

/-- The wake trigger test 6 presents at one record, if any. -/
def State.floodWake (s : State) (g : Option Slot) (f : Frame) (i : Slot) : Option Presented :=
  match s.station i with
  | none => none
  | some st =>
    if st.state.isAsleep && decide (st.segment = f.segment) && listsAny s.rstore st.rules &&
        !(decide (g = some i) && decide (st.address = frameSource f.bytes)) then
      (evaluate s.rstore st.rules f).map fun n => { slot := i, address := st.address, kind := .trigger (.rule n) none }
    else none

theorem State.floodAt_eq (s : State) (g : Option Slot) (f : Frame) (i : Slot) :
    s.floodAt g f i = { s with presented := s.presented ++ (s.floodWake g f i).toList } := by
  unfold State.floodAt State.floodWake
  cases hst : s.station i with
  | none => simp
  | some st =>
    simp only []
    split
    · cases evaluate s.rstore st.rules f <;> simp [State.present]
    · simp

theorem listsAny_iff (rules : Vector Rule 96) (list : List RuleNumber) :
    listsAny rules list = true ↔ ∃ m ∈ list, ∃ b, rules[m.val].body = some b ∧ b.scope = .any := by
  simp only [listsAny, List.any_eq_true]
  refine exists_congr fun m => and_congr_right fun _ => ?_
  cases rules[m.val].body <;> simp

theorem StationState.isAsleep_iff (q : StationState) : q.isAsleep = true ↔ ∃ l, q = .asleep l := by
  cases q <;> simp [StationState.isAsleep]

theorem State.floodWake_eq_some_iff (s : State) (g : Option Slot) (f : Frame) (i : Slot) (p : Presented) :
    s.floodWake g f i = some p ↔ ∃ st l n, s.station i = some st ∧ st.state = .asleep l ∧ st.segment = f.segment ∧
      (∃ m ∈ st.rules, ∃ b, s.rstore[m.val].body = some b ∧ b.scope = .any) ∧ ¬ (g = some i ∧ st.address = frameSource f.bytes) ∧
      s.FirstMatch st.rules f n ∧ p = { slot := i, address := st.address, kind := .trigger (.rule n) none } := by
  unfold State.floodWake
  cases hst : s.station i with
  | none => simp
  | some st =>
    simp only [Option.ite_none_right_eq_some, Option.map_eq_some_iff, Bool.and_eq_true, StationState.isAsleep_iff, listsAny_iff,
      decide_eq_true_eq, Bool.not_eq_true', Bool.and_eq_false_iff, decide_eq_false_iff_not, evaluate_eq_some_iff, State.FirstMatch,
      not_and_or]
    constructor
    · rintro ⟨⟨⟨⟨⟨l, hq⟩, hsegment⟩, hany⟩, hother⟩, n, hmatch, rfl⟩
      exact ⟨st, l, n, rfl, hq, hsegment, hany, hother, hmatch, rfl⟩
    · rintro ⟨_, l, n, hsame, hq, hsegment, hany, hother, hmatch, rfl⟩
      cases hsame
      exact ⟨⟨⟨⟨⟨l, hq⟩, hsegment⟩, hany⟩, hother⟩, n, hmatch, rfl⟩

theorem State.floodWake_slot {s : State} {g : Option Slot} {f : Frame} {i : Slot} {p : Presented} (h : s.floodWake g f i = some p) :
    p.slot = i := by
  obtain ⟨_, _, _, _, _, _, _, _, _, rfl⟩ := (s.floodWake_eq_some_iff g f i p).mp h
  rfl

/-- What test 6 presents from record `k` on. -/
def State.floodWakes (s : State) (g : Option Slot) (f : Frame) (k : Nat) : List Presented :=
  ((List.finRange 64).drop k).filterMap (s.floodWake g f)

theorem State.floodWakes_step (s : State) (g : Option Slot) (f : Frame) {k : Nat} (hk : k < 64) :
    s.floodWakes g f k = (s.floodWake g f ⟨k, hk⟩).toList ++ s.floodWakes g f (k + 1) := by
  have hdrop : (List.finRange 64).drop k = ⟨k, hk⟩ :: (List.finRange 64).drop (k + 1) := by
    rw [List.drop_eq_getElem_cons (by simpa using hk), List.getElem_finRange]
    rfl
  rw [State.floodWakes, hdrop, List.filterMap_cons]
  cases s.floodWake g f ⟨k, hk⟩ <;> rfl

theorem State.floodWakes_nil (s : State) (g : Option Slot) (f : Frame) {k : Nat} (hk : 64 ≤ k) : s.floodWakes g f k = [] := by
  rw [State.floodWakes, List.drop_eq_nil_of_le (by simpa using hk), List.filterMap_nil]

theorem State.floodWakes_slots_nodup (s : State) (g : Option Slot) (f : Frame) (k : Nat) :
    ((s.floodWakes g f k).map (·.slot)).Nodup := by
  rw [State.floodWakes, List.map_filterMap]
  refine List.Nodup.filterMap (fun i i' b hi hi' => ?_) ((List.drop_sublist _ _).nodup (List.nodup_finRange 64))
  have hslot : ∀ k : Slot, b ∈ (s.floodWake g f k).map (·.slot) → b = k := fun k hb => by
    obtain ⟨p, hp, rfl⟩ := Option.map_eq_some_iff.mp hb
    exact State.floodWake_slot hp
  exact (hslot i hi).symm.trans (hslot i' hi')

/-- The tests of test 6 from record `k` on, made one after another. -/
theorem State.classify_flood {s : State} {j : Fin 4} {f : Frame} {g : Option Slot} {k n : Nat} (h : s.Classifying j f (.flood k) g)
    (hk : k < 64) (hn : 64 ≤ n + k) :
    State.classify n s = State.endFrame { s with presented := s.presented ++ s.floodWakes g f k } j .free := by
  induction n generalizing s k with
  | zero => omega
  | succ n ih =>
    obtain ⟨⟨rest, harrivals⟩, hslot, hcurrent⟩ := h
    have hstep : s.classifyOnce = s.testFlood j g f k := by
      simp only [State.classifyOnce, harrivals, hslot, hcurrent, State.makeTest]
    rw [State.classify_succ, hstep, s.floodWakes_step g f hk, ← List.append_assoc]
    simp only [State.testFlood, dif_pos hk, State.floodAt_eq]
    by_cases hlast : k + 1 < 64
    · rw [if_pos hlast]
      refine (if_neg (Option.some_ne_none _)).trans ?_
      exact ih ⟨⟨rest, harrivals⟩, hslot, rfl⟩ hlast (by omega)
    · rw [if_neg hlast, s.floodWakes_nil g f (Nat.le_of_not_lt hlast), List.append_nil]
      exact if_pos rfl

/-- Settles O31: every record is tested once, so the triggers are those of `floodWake` over all slots. -/
theorem floodTest : Obligations.FloodTest := by
  unfold Obligations.FloodTest
  intro s j f g hc
  refine ⟨(State.classify 70 s).drivePins, s.floodWakes g f 0, rfl, ?_⟩
  rw [State.classify_flood hc (by decide) (by decide)]
  refine ⟨rfl, rfl, rfl, s.floodWakes_slots_nodup g f 0, fun p => ?_⟩
  simp only [State.floodWakes, List.drop_zero, List.mem_filterMap, List.mem_finRange, true_and, State.floodWake_eq_some_iff]

end Sys2Proof.Machine
end

section
/-! PROOF. An awake confirmation at a record (O34, O35): one equation for each state it finds, and the three events it comes by as one. -/

namespace Sys2Proof.Machine

/-! ### The confirmation, state by state (R25 to R28) -/

section
variable {s : State} {i : Slot} {st : Station}

/-- A record set to a state, with its own slot's notice posted. -/
theorem State.returned_eq (h : s.station i = some st) : (s.setStationState i .awake).postFor i .stationReturned .none =
    { s.setStation i { st with state := .awake } with
      nq := s.nq.post { kind := .stationReturned, subject := some (i, s.generation i), detail := .none } } := by
  rw [State.setStationState_eq h]
  simp [State.postFor, State.setStation, State.setRecord, State.generation]

theorem State.confirmAwake_asleep (h : s.station i = some st) (hq : ∃ l, st.state = .asleep l) : s.confirmAwake i =
    { s.setStation i { st with state := .leaving .confirmed none } with steer := s.steer.withRequest .restore i st } := by
  obtain ⟨l, hq⟩ := hq
  simp only [State.confirmAwake, h, hq]
  rw [State.setStationState_eq h, State.place_eq]
  rfl

theorem State.confirmAwake_waking (h : s.station i = some st) {cause : WakeCause} {held : Option (Fin 16)} (hq : st.state = .waking cause held) :
    s.confirmAwake i = s.confirmWaking i st cause held := by
  simp only [State.confirmAwake, h, hq]

theorem State.confirmAwake_unsent (h : s.station i = some st) (hq : ∃ o, st.state = .entering o) {t : Steer}
    (hcancel : s.steer.cancelDivert i = (t, .cancelled)) : s.confirmAwake i =
      { s.setStation i { st with state := .awake } with
        steer := t, nq := s.nq.post { kind := .stationReturned, subject := some (i, s.generation i), detail := .none } } := by
  obtain ⟨o, hq⟩ := hq
  simp only [State.confirmAwake, h, hq, State.confirmEntering, hcancel]
  rw [State.returned_eq (by exact h)]
  rfl

theorem State.confirmAwake_inFlight (h : s.station i = some st) (hq : ∃ o, st.state = .entering o) {t : Steer}
    (hcancel : s.steer.cancelDivert i = (t, .inFlight)) : s.confirmAwake i =
      { s.setStation i { st with state := .leaving .confirmed none } with steer := t.withRequest .restore i st } := by
  obtain ⟨o, hq⟩ := hq
  simp only [State.confirmAwake, h, hq, State.confirmEntering, hcancel]
  rw [State.setStationState_eq (by exact h), State.place_eq]
  rfl

theorem State.confirmAwake_exhausted (h : s.station i = some st) {cause : Option WakeCause} (hq : st.state = .leaving .exhausted cause) :
    s.confirmAwake i = s.setStation i { st with state := .leaving .confirmed cause } := by
  simp only [State.confirmAwake, h, hq]
  exact State.setStationState_eq h

theorem State.confirmAwake_lapsed (h : s.station i = some st) (hq : st.state = .lapsed) : s.confirmAwake i =
    { s.setStation i { st with state := .awake } with
      nq := s.nq.post { kind := .stationReturned, subject := some (i, s.generation i), detail := .none } } := by
  simp only [State.confirmAwake, h, hq]
  exact State.returned_eq h

theorem State.confirmAwake_stays (h : s.station i = some st)
    (hq : st.state = .awake ∨ st.state = .retiring ∨ ∃ cause, st.state = .leaving .confirmed cause) : s.confirmAwake i = s := by
  rcases hq with hq | hq | ⟨cause, hq⟩ <;> simp only [State.confirmAwake, h, hq]

/-- Outside WAKING a confirmation changes the record, the steering queue and the notices alone. -/
theorem State.confirmAwake_keeps (h : s.station i = some st) (hwaking : ∀ cause held, st.state ≠ .waking cause held) :
    ({ s.confirmAwake i with stab := s.stab, steer := s.steer, nq := s.nq } : State) = s := by
  cases hq : st.state with
  | awake => rw [State.confirmAwake_stays h (Or.inl hq)]
  | entering o =>
    cases hcancel : s.steer.cancelDivert i with
    | mk t answer =>
      cases answer with
      | cancelled => rw [State.confirmAwake_unsent h ⟨o, hq⟩ hcancel]; rfl
      | inFlight => rw [State.confirmAwake_inFlight h ⟨o, hq⟩ hcancel]; rfl
  | asleep l => rw [State.confirmAwake_asleep h ⟨l, hq⟩]; rfl
  | waking cause held => exact absurd hq (hwaking cause held)
  | leaving reason cause =>
    cases reason with
    | exhausted => rw [State.confirmAwake_exhausted h hq]; rfl
    | confirmed => rw [State.confirmAwake_stays h (Or.inr (Or.inr ⟨cause, hq⟩))]
  | lapsed => rw [State.confirmAwake_lapsed h hq]; rfl
  | retiring => rw [State.confirmAwake_stays h (Or.inr (Or.inl hq))]

end

/-! ### The acknowledgement of a SLEEP that confirms first (R33) -/

/-- RESP with SLEEP_ACK jobs handed on. -/
def State.withAcks (s : State) (jobs : List AckJob) : State :=
  { s with resp := { s.resp with ackJobs := s.resp.ackJobs ++ jobs } }

/-- Setting the station of a slot that was set before. -/
theorem State.setStation_over {s t : State} {i : Slot} {x : Station} (h : t.stab = (s.setStation i x).stab) (y : Station) :
    t.setStation i y = { t with stab := (s.setStation i y).stab } := by
  have hset : ((s.setStation i x).setStation i y).stab = (s.setStation i y).stab := by rw [State.setStation_setStation]
  rw [← hset]
  simp only [State.setStation, State.setRecord, State.generation, h]

theorem State.decideAck_over {s t : State} {i : Slot} {x : Station} (h : t.stab = (s.setStation i x).stab) {code : AckCode}
    {granted q : Half} : t.decideAck i code granted q =
      ({ t with stab := (s.setStation i { x with lastAck := some (code, granted) }).stab } : State).withAcks [ackJobFor i x code q granted] := by
  rw [State.decideAck_eq (st := x) (by rw [State.station_of_stab h]; exact State.setStation_station_self _ _ _), State.setStation_over h]
  rfl

/-- The acknowledgement may be set before the confirmation it follows, at a record that is WAKING or exhausted. -/
theorem State.decideAck_confirmAwake {s : State} {i : Slot} {st : Station} (h : s.station i = some st)
    (hq : (∃ cause held, st.state = .waking cause held) ∨ ∃ cause, st.state = .leaving .exhausted cause) (code : AckCode) (granted q : Half) :
    (s.confirmAwake i).decideAck i code granted q =
      ((s.setStation i { st with lastAck := some (code, granted) }).confirmAwake i).withAcks [ackJobFor i st code q granted] := by
  have hacked : (s.setStation i { st with lastAck := some (code, granted) }).station i =
      some { st with lastAck := some (code, granted) } := State.setStation_station_self _ _ _
  rcases hq with ⟨cause, held, hq⟩ | ⟨cause, hq⟩
  · rw [State.confirmAwake_waking h hq, State.confirmAwake_waking hacked hq, State.confirmWaking_eq h, State.confirmWaking_eq hacked]
    simp only [State.setStation_emit, State.setStation_hold, State.setStation_wake, State.setStation_steer, State.setStation_setStation]
    cases held with
    | none => exact State.decideAck_over (s := s) (x := { st with state := .leaving .confirmed (some cause) }) (by rfl)
    | some b =>
      by_cases hroom : (s.emit.withdraw i st.address).size < Config.emissionCapacity
      · simp only [if_pos hroom]
        exact State.decideAck_over (s := s) (x := { st with state := .leaving .confirmed (some cause) }) (by rfl)
      · simp only [if_neg hroom]
        exact State.decideAck_over (s := s)
          (x := { st with state := .leaving .confirmed (some cause), framesShed := saturate16 st.framesShed }) (by rfl)
  · rw [State.confirmAwake_exhausted h hq, State.confirmAwake_exhausted hacked hq, State.decideAck_eq (State.setStation_station_self _ _ _),
      State.setStation_setStation, State.setStation_setStation]
    rfl

/-! ### The three events as one -/

/-- What a confirmation event leaves, before the pins follow: the announcement's changes at the record, then the
confirmation, with the acknowledgement handed on. -/
def State.confirmed (s : State) (i : Slot) (st' : Station) (jobs : List AckJob) (rest : List Presented) : State :=
  ((({ s with presented := rest } : State).setStation i st').confirmAwake i).withAcks jobs

/-- A sighting that finds the record ICLS matched is a confirmation there. -/
theorem exec_sighting {s : State} {i : Slot} {st : Station} {before after : List Presented} (h : s.Presents i st .sighting before after) :
    exec (.sighting i) s = settle (({ s with presented := before ++ after } : State).confirmAwake i) := by
  obtain ⟨hpresents, hst⟩ := h
  show execSighting i s = _
  simp only [execSighting, State.nextPresented_eq hpresents, State.matched_eq_some hst rfl, State.popPresented_eq hpresents]

/-- An announcement that finds the record ICLS matched is taken there. -/
theorem exec_announcement {s : State} {i : Slot} {st : Station} {op : AnnounceOp} {q lease : Half} {before after : List Presented}
    (h : s.Presents i st (.announcement op q lease) before after) :
    exec (.announcement i) s = settle (({ s with presented := before ++ after } : State).takeAnnouncement i st op q lease) := by
  obtain ⟨hpresents, hst⟩ := h
  show execAnnouncement i s = _
  simp only [execAnnouncement, State.nextPresented_eq hpresents, State.matched_eq_some hst rfl, State.popPresented_eq hpresents]

theorem State.takeAnnouncement_awake {s : State} {i : Slot} {st : Station} {q : Half} (hnew : NewSequence st.lastSequence q) (lease : Half) :
    s.takeAnnouncement i st .awake q lease = (s.setStation i { st with lastSequence := some q }).confirmAwake i := by
  simp only [State.takeAnnouncement, sequenceClass_new hnew]

theorem State.takeAnnouncement_sleep {s : State} {i : Slot} {st : Station} {q : Half} (hnew : NewSequence st.lastSequence q) (lease : Half) :
    s.takeAnnouncement i st .sleep q lease = (s.setStation i { st with lastSequence := some q }).sleepAnnounced i q lease := by
  simp only [State.takeAnnouncement, sequenceClass_new hnew]

/-- R33: a SLEEP at a WAKING or exhausted record confirms it first. -/
theorem State.sleepAnnounced_confirms {s : State} {i : Slot} {st : Station} (h : s.station i = some st)
    (hq : (∃ cause held, st.state = .waking cause held) ∨ ∃ cause, st.state = .leaving .exhausted cause) (q lease : Half) :
    s.sleepAnnounced i q lease = (s.confirmAwake i).decideAck i .inTransition 0#16 q := by
  rcases hq with ⟨cause, held, hq⟩ | ⟨cause, hq⟩ <;> simp only [State.sleepAnnounced, h, hq]

variable {s : State} {c : Instr} {i : Slot} {st st' : Station} {jobs : List AckJob} {before after : List Presented}

/-- The three events of a confirmation do the same. -/
theorem State.ConfirmationEvent.exec_eq (h : s.ConfirmationEvent c i st st' jobs before after) :
    exec c s = settle (s.confirmed i st' jobs (before ++ after)) := by
  rcases h with ⟨rfl, hpresents, rfl, rfl⟩ | ⟨q, lease, rfl, hpresents, hnew, rfl, rfl⟩ | ⟨q, lease, rfl, hpresents, hnew, hq, rfl, rfl⟩
  · have hset : ({ s with presented := before ++ after } : State).setStation i st' = { s with presented := before ++ after } :=
      State.setStation_self hpresents.2
    rw [exec_sighting hpresents, State.confirmed, hset, State.withAcks, List.append_nil]
  · rw [exec_announcement hpresents, State.takeAnnouncement_awake hnew, State.confirmed, State.withAcks, List.append_nil]
  · have hset := State.setStation_station_self { s with presented := before ++ after } i { st with lastSequence := some q }
    rw [exec_announcement hpresents, State.takeAnnouncement_sleep hnew, State.sleepAnnounced_confirms hset hq,
      State.decideAck_confirmAwake hset hq, State.setStation_setStation]
    rfl

/-- What the event sets at the record leaves what a confirmation reads of it. -/
theorem State.ConfirmationEvent.station_eq (h : s.ConfirmationEvent c i st st' jobs before after) :
    st'.state = st.state ∧ st'.address = st.address ∧ st'.port = st.port ∧ st'.segment = st.segment ∧ st'.framesShed = st.framesShed := by
  rcases h with ⟨-, -, rfl, -⟩ | ⟨q, lease, -, -, -, rfl, -⟩ | ⟨q, lease, -, -, -, -, rfl, -⟩ <;> exact ⟨rfl, rfl, rfl, rfl, rfl⟩

theorem Steer.withRequest_congr {t : Steer} {k : SteerKind} (haddress : st'.address = st.address) (hport : st'.port = st.port)
    (hsegment : st'.segment = st.segment) : t.withRequest k i st' = t.withRequest k i st := by
  simp only [Steer.withRequest, haddress, hport, hsegment]

theorem State.confirmed_resp (s : State) (i : Slot) (st' : Station) (jobs : List AckJob) (rest : List Presented) :
    s.HandsAcks (s.confirmed i st' jobs rest) jobs := by
  simp only [State.HandsAcks, State.confirmed, State.withAcks, State.confirmAwake_frame, State.setStation_resp]

theorem State.confirmed_presented (s : State) (i : Slot) (st' : Station) (jobs : List AckJob) (rest : List Presented) :
    (s.confirmed i st' jobs rest).presented = rest := by
  simp only [State.confirmed, State.withAcks, State.confirmAwake_frame, State.setStation_presented]

theorem State.onlyStation_of_twice {t : State} {rest : List Presented} {x : Station}
    (h : t.stab = ((({ s with presented := rest } : State).setStation i st').setStation i x).stab) : s.OnlyStation t i (some x) :=
  State.onlyStation_of_setStation (h.trans (by rw [State.setStation_setStation]; rfl))

/-- Settles O34: the event is one confirmation (`exec_eq`), and each state has its equation. -/
theorem confirmationResult : Obligations.ConfirmationResult := by
  unfold Obligations.ConfirmationResult
  intro s c i st st' jobs before after h hwaking
  obtain ⟨hstate, haddress, hport, hsegment, -⟩ := h.station_eq
  have hset := State.setStation_station_self { s with presented := before ++ after } i st'
  have hgeneration : (({ s with presented := before ++ after } : State).setStation i st').generation i = s.generation i :=
    State.setStation_generation _ _ _ _
  have hrequest : ∀ t : Steer, t.withRequest .restore i st' = t.withRequest .restore i st := fun t =>
    Steer.withRequest_congr haddress hport hsegment
  rw [← hstate] at hwaking
  refine ⟨_, h.exec_eq, s.confirmed_presented i st' jobs _, s.confirmed_resp i st' jobs _, ?keeps, fun hq => ?asleep,
    fun hq => ⟨fun r pre post hqueue hdivert hslot hfirst => ?unsent, fun hnone hsent => ?inFlight⟩, fun cause hq => ?exhausted,
    fun hq => ?lapsed, fun hq => ?stays⟩
  case keeps =>
    exact congrArg (fun x : State => ({ x with presented := s.presented, resp := s.resp, stab := s.stab } : State).withPinsOf s)
      (State.confirmAwake_keeps hset hwaking)
  all_goals rw [← hstate] at hq
  case asleep =>
    simp only [State.confirmed, State.confirmAwake_asleep hset hq]
    exact ⟨State.onlyStation_of_twice rfl, hrequest _, rfl⟩
  case unsent =>
    simp only [State.confirmed, State.confirmAwake_unsent hset hq (Steer.cancelDivert_unsent hqueue hdivert hslot hfirst), hgeneration]
    exact ⟨State.onlyStation_of_twice rfl, rfl, rfl⟩
  case inFlight =>
    simp only [State.confirmed, State.confirmAwake_inFlight hset hq (Steer.cancelDivert_sent hnone hsent)]
    exact ⟨State.onlyStation_of_twice rfl, hrequest _, rfl⟩
  case exhausted =>
    simp only [State.confirmed, State.confirmAwake_exhausted hset hq]
    exact ⟨State.onlyStation_of_twice rfl, rfl, rfl⟩
  case lapsed =>
    simp only [State.confirmed, State.confirmAwake_lapsed hset hq, hgeneration]
    exact ⟨State.onlyStation_of_twice rfl, rfl, rfl⟩
  case stays =>
    simp only [State.confirmed, State.confirmAwake_stays hset hq]
    exact ⟨State.onlyStation_of_setStation rfl, rfl, rfl⟩

/-! ### A WAKING record confirmed (R26, R126) -/

/-- Settles O35: `confirmWaking_eq` says what becomes of the context, the WAKE entries and the held frame. -/
theorem wakingConfirmed : Obligations.WakingConfirmed := by
  unfold Obligations.WakingConfirmed
  intro s c i st st' jobs before after cause held h hq rest size
  obtain ⟨hstate, haddress, hport, hsegment, hshed⟩ := h.station_eq
  have hset := State.setStation_station_self { s with presented := before ++ after } i st'
  have hrequest : ∀ t : Steer, t.withRequest .restore i st' = t.withRequest .restore i st := fun t =>
    Steer.withRequest_congr haddress hport hsegment
  have hemit : s.emit.withdraw i st'.address = { s.emit with waiting := rest } := by rw [haddress, Emit.withdraw_eq]
  have hsize : ({ s.emit with waiting := rest } : Emit).size = size := rfl
  have heq : s.confirmed i st' jobs (before ++ after) = ((({ s with presented := before ++ after } : State).setStation i st').confirmWaking i st'
      cause held).withAcks jobs := by rw [State.confirmed, State.confirmAwake_waking hset (hstate.trans hq)]
  refine ⟨_, h.exec_eq, s.confirmed_presented i st' jobs _, s.confirmed_resp i st' jobs _, ?_⟩
  rw [heq, State.confirmWaking_eq hset]
  simp only [State.setStation_emit, State.setStation_hold, State.setStation_wake, State.setStation_steer, hemit, hrequest, hsize]
  cases held with
  | none => exact ⟨rfl, rfl, fun _ => ⟨State.onlyStation_of_twice rfl, rfl, rfl⟩, nofun, nofun, rfl⟩
  | some b =>
    by_cases hroom : size < Config.emissionCapacity
    · simp only [if_pos hroom]
      refine ⟨rfl, rfl, nofun, fun b' bytes hb hreserved _ => ?_, fun b' hb hfull => absurd hroom (Nat.not_lt_of_le hfull), rfl⟩
      cases hb
      simp only [hreserved]
      rw [hport, hsegment]
      exact ⟨State.onlyStation_of_twice rfl, rfl, rfl⟩
    · simp only [if_neg hroom]
      refine ⟨rfl, rfl, nofun, fun b' bytes hb hreserved hlt => absurd hlt hroom, fun b' hb hfull => ?_, rfl⟩
      cases hb
      rw [← hshed]
      exact ⟨State.onlyStation_of_twice rfl, rfl, rfl⟩

end Sys2Proof.Machine
end

section
/-! PROOF. Announcements at a record (O36): a new SLEEP state by state, and what a repeated or an old one leaves. -/

namespace Sys2Proof.Machine

/-! ### A new SLEEP, state by state (R29 to R33) -/

section
variable {s : State} {i : Slot} {st : Station}

theorem State.sleepFromAwake_refused {refusal : SleepRefusal} (hcheck : s.sleepCheck st = some refusal) (q lease : Half) :
    s.sleepFromAwake i st q lease = s.decideAck i refusal.asAck 0#16 q := by
  simp only [State.sleepFromAwake, hcheck]

theorem State.sleepFromAwake_accepted (hcheck : s.sleepCheck st = none) (q lease : Half) :
    s.sleepFromAwake i st q lease = s.enterSleep i st (.announced q lease) := by
  simp only [State.sleepFromAwake, hcheck]

/-- The notices after the confirmation of a record that is AWAKE or LAPSED: it has returned if it was LAPSED. -/
def State.returnNotices (s : State) (i : Slot) (q : StationState) : Nq :=
  if q = .lapsed then s.nq.post { kind := .stationReturned, subject := some (i, s.generation i), detail := .none } else s.nq

/-- R33: at a LAPSED record the confirmation comes first; from then on the record is AWAKE. -/
theorem State.sleepAnnounced_asks (h : s.station i = some st) (hq : st.state = .awake ∨ st.state = .lapsed) (q lease : Half) :
    s.sleepAnnounced i q lease = ({ s.setStation i { st with state := .awake } with
      nq := s.returnNotices i st.state } : State).sleepFromAwake i st q lease := by
  rcases hq with hq | hq
  · have hsame : s.setStation i { st with state := .awake } = s := by rw [← hq]; exact State.setStation_self h
    rw [hsame]
    simp only [State.sleepAnnounced, h, hq]
    rfl
  · simp only [State.sleepAnnounced, h, hq]
    rw [State.confirmAwake_lapsed h hq]
    rfl

theorem State.sleepAnnounced_entering (h : s.station i = some st) (hq : ∃ o, st.state = .entering o) (q lease : Half) :
    s.sleepAnnounced i q lease = s.setStation i { st with state := .entering (.announced q lease) } := by
  obtain ⟨o, hq⟩ := hq
  simp only [State.sleepAnnounced, h, hq]
  exact State.setStationState_eq h

theorem State.sleepAnnounced_asleep (h : s.station i = some st) (hq : ∃ l, st.state = .asleep l) (q lease : Half) :
    s.sleepAnnounced i q lease = ({ s with stab := (s.setStation i { st with
        state := .asleep (startLease (effectiveLease lease st.defaultLease))
        lastAck := some (.accepted, effectiveLease lease st.defaultLease) }).stab } : State).withAcks
      [ackJobFor i st .accepted q (effectiveLease lease st.defaultLease)] := by
  obtain ⟨l, hq⟩ := hq
  simp only [State.sleepAnnounced, h, hq]
  rw [State.setStationState_eq h]
  exact State.decideAck_over (s := s) (x := { st with state := .asleep (startLease (effectiveLease lease st.defaultLease)) }) (by rfl)

theorem State.sleepAnnounced_acked (h : s.station i = some st) {code : AckCode} (hq : (∃ cause, st.state = .leaving .confirmed cause) ∧
    code = .inTransition ∨ st.state = .retiring ∧ code = .retiring) (q lease : Half) :
    s.sleepAnnounced i q lease = (s.setStation i { st with lastAck := some (code, 0#16) }).withAcks [ackJobFor i st code q 0#16] := by
  have hack : s.sleepAnnounced i q lease = s.decideAck i code 0#16 q := by
    rcases hq with ⟨⟨cause, hq⟩, rfl⟩ | ⟨hq, rfl⟩ <;> simp only [State.sleepAnnounced, h, hq]
  exact hack.trans (State.decideAck_eq h)

end

/-- The states a SLEEP announcement finds without confirming the record first, and LAPSED. -/
theorem StationState.announced_cases {q : StationState} (hwaking : ∀ cause held, q ≠ .waking cause held)
    (hexhausted : ∀ cause, q ≠ .leaving .exhausted cause) : (q = .awake ∨ q = .lapsed) ∨ (∃ o, q = .entering o) ∨ (∃ l, q = .asleep l) ∨
      ∃ code, (∃ cause, q = .leaving .confirmed cause) ∧ code = AckCode.inTransition ∨ q = .retiring ∧ code = .retiring := by
  cases q with
  | awake => exact Or.inl (Or.inl rfl)
  | lapsed => exact Or.inl (Or.inr rfl)
  | entering o => exact Or.inr (Or.inl ⟨o, rfl⟩)
  | asleep l => exact Or.inr (Or.inr (Or.inl ⟨l, rfl⟩))
  | waking cause held => exact absurd rfl (hwaking cause held)
  | leaving reason cause =>
    cases reason with
    | exhausted => exact absurd rfl (hexhausted cause)
    | confirmed => exact Or.inr (Or.inr (Or.inr ⟨.inTransition, Or.inl ⟨⟨cause, rfl⟩, rfl⟩⟩))
  | retiring => exact Or.inr (Or.inr (Or.inr ⟨.retiring, Or.inr ⟨rfl, rfl⟩⟩))

/-! ### Old and repeated announcements (R86, R88) -/

theorem sequenceClass_not_new {last q : Half} (h : ¬ (1 ≤ (q - last).toNat ∧ (q - last).toNat ≤ 32767)) :
    sequenceClass (some last) q = if q = last then .repeated else .old := by
  have hzero : (q - last).toNat = 0 ↔ q = last := by bv_omega
  simp only [sequenceClass]
  by_cases hq : q = last
  · rw [if_pos (hzero.mpr hq), if_pos hq]
  · have := mt hzero.mp hq
    rw [if_neg this, if_neg hq, if_neg (by omega)]

theorem State.repeatAnnounced_answers {s : State} {i : Slot} {st : Station} {code : AckCode} {granted : Half}
    (hentering : ∀ o, st.state ≠ .entering o) (hack : st.lastAck = some (code, granted)) (q : Half) :
    s.repeatAnnounced i st .sleep q = s.withAcks [ackJobFor i st code q granted] := by
  unfold State.repeatAnnounced
  rw [hack]
  cases hq : st.state with
  | entering o => exact absurd hq (hentering o)
  | _ => rfl

theorem State.repeatAnnounced_drops {s : State} {i : Slot} {st : Station} {op : AnnounceOp}
    (h : op = .awake ∨ (∃ o, st.state = .entering o) ∨ st.lastAck = none) (q : Half) : s.repeatAnnounced i st op q = s := by
  cases op with
  | awake => rfl
  | sleep =>
    unfold State.repeatAnnounced
    rcases h with h | ⟨o, h⟩ | h
    · cases h
    · rw [h]
    · rw [h]
      cases st.state <;> rfl

theorem State.repeatAnnounced_acks (s : State) (i : Slot) (st : Station) (op : AnnounceOp) (q : Half) :
    ∃ jobs, s.repeatAnnounced i st op q = s.withAcks jobs := by
  by_cases h : op = .awake ∨ (∃ o, st.state = .entering o) ∨ st.lastAck = none
  · refine ⟨[], (State.repeatAnnounced_drops h q).trans ?_⟩
    rw [State.withAcks, List.append_nil]
  · obtain ⟨hop, hentering, hack⟩ : op ≠ .awake ∧ (∀ o, st.state ≠ .entering o) ∧ st.lastAck ≠ none := by simpa [not_or] using h
    obtain ⟨⟨code, granted⟩, hack⟩ := Option.ne_none_iff_exists'.mp hack
    cases op with
    | awake => exact absurd rfl hop
    | sleep => exact ⟨_, State.repeatAnnounced_answers hentering hack q⟩

theorem State.handsAcks_nil (s t : State) : s.HandsAcks t [] ↔ t.resp = s.resp := by rw [State.HandsAcks, List.append_nil]

/-- The three ways the checks of a sleep request can refuse an announcement. -/
theorem State.sleepCheck_refuses {s : State} {st : Station} {code : AckCode} (h : s.steer.mode ≠ .running ∧ code = .notRunning ∨
    s.steer.mode = .running ∧ s.steer.link ≠ .up ∧ code = .linkDown ∨
    s.steer.mode = .running ∧ s.steer.link = .up ∧ st.template = none ∧ code = .noTemplate) :
    ∃ refusal, s.sleepCheck st = some refusal ∧ refusal.asAck = code := by
  rcases h with ⟨hmode, rfl⟩ | ⟨hmode, hlink, rfl⟩ | ⟨hmode, hlink, ht, rfl⟩
  · exact ⟨.notRunning, if_pos hmode, rfl⟩
  · exact ⟨_, State.sleepCheck_linkDown hmode hlink, rfl⟩
  · exact ⟨_, State.sleepCheck_noTemplate hmode hlink ht, rfl⟩

section
variable {s : State} {i : Slot} {st : Station} (rest : List Presented) (q lease : Half)

/-- The state in which a new announcement is taken: the event is off the list and its sequence is the last one. -/
def State.announced (s : State) (i : Slot) (st : Station) (rest : List Presented) (q : Half) : State :=
  ({ s with presented := rest } : State).setStation i { st with lastSequence := some q }

theorem State.announced_station : (s.announced i st rest q).station i = some { st with lastSequence := some q } :=
  State.setStation_station_self _ _ _

theorem State.announced_generation : (s.announced i st rest q).generation i = s.generation i :=
  State.setStation_generation _ _ _ _

/-- The record AWAKE before the checks of the request, with the notices the return left. -/
def State.asking (s : State) (i : Slot) (st : Station) (rest : List Presented) (q : Half) : State :=
  { s with presented := rest, stab := (s.setStation i { st with state := .awake, lastSequence := some q }).stab
           nq := s.returnNotices i st.state }

theorem State.announced_asks (hq : st.state = .awake ∨ st.state = .lapsed) : (s.announced i st rest q).sleepAnnounced i q lease =
    (s.asking i st rest q).sleepFromAwake i { st with lastSequence := some q } q lease := by
  rw [State.sleepAnnounced_asks (State.announced_station rest q) hq, 
    State.setStation_over (s := s) (t := s.announced i st rest q) (x := { st with lastSequence := some q }) rfl]
  simp only [State.returnNotices, State.announced_generation]
  rfl

theorem State.announced_nq (hq : st.state = .awake ∨ st.state = .lapsed) :
    ((s.announced i st rest q).sleepAnnounced i q lease).nq = s.returnNotices i st.state := by
  simp only [State.announced_asks rest q lease hq, State.sleepFromAwake_frame]
  rfl

theorem State.asking_refused {code : AckCode} (h : s.steer.mode ≠ .running ∧ code = .notRunning ∨
    s.steer.mode = .running ∧ s.steer.link ≠ .up ∧ code = .linkDown ∨
    s.steer.mode = .running ∧ s.steer.link = .up ∧ st.template = none ∧ code = .noTemplate) :
    (s.asking i st rest q).sleepFromAwake i { st with lastSequence := some q } q lease =
      ({ s with presented := rest, nq := s.returnNotices i st.state
                stab := (s.setStation i { st with state := .awake, lastSequence := some q, lastAck := some (code, 0#16) }).stab } : State).withAcks
        [ackJobFor i st code q 0#16] := by
  obtain ⟨refusal, hcheck, rfl⟩ := State.sleepCheck_refuses h
  rw [State.sleepFromAwake_refused (refusal := refusal) (by exact hcheck)]
  exact State.decideAck_over (s := s) (x := { st with state := .awake, lastSequence := some q }) (by rfl)

theorem State.asking_accepted (hmode : s.steer.mode = .running) (hlink : s.steer.link = .up) (ht : st.template ≠ none) :
    (s.asking i st rest q).sleepFromAwake i { st with lastSequence := some q } q lease =
      { s with presented := rest, nq := s.returnNotices i st.state, steer := s.steer.withRequest .divert i st
               stab := (s.setStation i { st with state := .entering (.announced q lease), lastSequence := some q }).stab } := by
  have hst : (s.asking i st rest q).station i = some { st with state := .awake, lastSequence := some q } :=
    (State.station_of_stab (t := s.setStation i _) rfl i).trans (State.setStation_station_self _ _ _)
  rw [State.sleepFromAwake_accepted (by exact State.sleepCheck_passes hmode hlink ht), State.enterSleep, State.setStationState_eq hst,
    State.place_eq, State.setStation_over (s := s) (t := s.asking i st rest q) (x := { st with state := .awake, lastSequence := some q }) rfl]
  rfl

/-- A SLEEP that is not refused and not confirmed first changes the record, its acknowledgement, the steering queue and the notices. -/
theorem State.announced_keeps (hwaking : ∀ cause held, st.state ≠ .waking cause held)
    (hexhausted : ∀ cause, st.state ≠ .leaving .exhausted cause) :
    ({ (s.announced i st rest q).sleepAnnounced i q lease with
      presented := s.presented, resp := s.resp, stab := s.stab, steer := s.steer, nq := s.nq } : State) = s := by
  have hset := State.announced_station (s := s) (i := i) (st := st) rest q
  rcases StationState.announced_cases hwaking hexhausted with hq | hq | hq | ⟨code, hq⟩
  · rw [State.announced_asks rest q lease hq]
    by_cases hcheck : s.steer.mode = .running ∧ s.steer.link = .up ∧ st.template ≠ none
    · obtain ⟨hmode, hlink, ht⟩ := hcheck
      rw [State.asking_accepted rest q lease hmode hlink ht]
    · have hrefused : ∃ code, s.steer.mode ≠ .running ∧ code = AckCode.notRunning ∨
          s.steer.mode = .running ∧ s.steer.link ≠ .up ∧ code = .linkDown ∨
          s.steer.mode = .running ∧ s.steer.link = .up ∧ st.template = none ∧ code = .noTemplate := by
        by_cases hmode : s.steer.mode = .running
        · by_cases hlink : s.steer.link = .up
          · exact ⟨_, Or.inr (Or.inr ⟨hmode, hlink, by_contra fun ht => hcheck ⟨hmode, hlink, ht⟩, rfl⟩)⟩
          · exact ⟨_, Or.inr (Or.inl ⟨hmode, hlink, rfl⟩)⟩
        · exact ⟨_, Or.inl ⟨hmode, rfl⟩⟩
      obtain ⟨code, hrefused⟩ := hrefused
      rw [State.asking_refused rest q lease hrefused]
      rfl
  · rw [State.sleepAnnounced_entering hset hq]; rfl
  · rw [State.sleepAnnounced_asleep hset hq]; rfl
  · rw [State.sleepAnnounced_acked hset hq]; rfl

end

/-- Settles O36: the class of the sequence, then the record's state. -/
theorem announcementResult : Obligations.AnnouncementResult := by
  unfold Obligations.AnnouncementResult
  refine ⟨fun s i st q lease before after h hnew hwaking hexhausted => ?new, fun s i st op q lease last before after h hlast => ?notNew⟩
  case new =>
    have hset := State.announced_station (s := s) (i := i) (st := st) (before ++ after) q
    refine ⟨((s.announced i st (before ++ after) q).sleepAnnounced i q lease).drivePins, ?_, ?_, ?_, fun hq => ⟨fun hawake => ?_, fun hlapsed => ?_,
      fun code hcode => ?_, fun hmode hlink ht => ?_⟩, fun hq => ?_, fun hq => ?_, fun code hq => ?_⟩
    · rw [exec_announcement h, State.takeAnnouncement_sleep hnew]
      rfl
    · rw [State.drivePins_presented, (State.sleepAnnounced_frame _ i q lease).1]
      rfl
    · exact Eq.trans (by rfl) (congrArg (State.withPinsOf · s) (State.announced_keeps (before ++ after) q lease hwaking hexhausted))
    · rw [State.drivePins_nq, State.announced_nq _ q lease hq, State.returnNotices, hawake]
      rfl
    · rw [State.drivePins_nq, State.announced_nq _ q lease hq, State.returnNotices, if_pos hlapsed]
    · rw [State.announced_asks _ q lease hq, State.asking_refused _ q lease hcode]
      exact ⟨State.onlyStation_of_setStation rfl, rfl, rfl⟩
    · rw [State.announced_asks _ q lease hq, State.asking_accepted _ q lease hmode hlink ht]
      exact ⟨State.onlyStation_of_setStation rfl, (State.handsAcks_nil _ _).mpr rfl, rfl⟩
    · rw [State.sleepAnnounced_entering hset hq]
      exact ⟨State.onlyStation_of_twice rfl, (State.handsAcks_nil _ _).mpr rfl, rfl, rfl⟩
    · rw [State.sleepAnnounced_asleep hset hq, startLease_effective]
      exact ⟨State.onlyStation_of_twice rfl, rfl, rfl, rfl⟩
    · rw [State.sleepAnnounced_acked hset hq]
      exact ⟨State.onlyStation_of_twice rfl, rfl, rfl, rfl⟩
  case notNew =>
    refine ⟨_, exec_announcement h, fun hold => ?_⟩
    have hclass := hlast ▸ sequenceClass_not_new hold
    by_cases hq : q = last
    · rw [if_pos hq] at hclass
      simp only [State.takeAnnouncement, hclass]
      refine ⟨?_, ?_, fun code granted _ hop hentering hack => ?_, fun hdrop => ?_⟩
      · rw [State.drivePins_presented, (State.repeatAnnounced_frame _ i st op q).2.1]
      · obtain ⟨jobs, hjobs⟩ := ({ s with presented := before ++ after } : State).repeatAnnounced_acks i st op q
        rw [hjobs]
        rfl
      · rw [hop, State.repeatAnnounced_answers hentering hack]
        rfl
      · rw [State.repeatAnnounced_drops (hdrop.resolve_left (not_not_intro hq))]
        exact (State.handsAcks_nil _ _).mpr rfl
    · rw [if_neg hq] at hclass
      simp only [State.takeAnnouncement, hclass]
      exact ⟨rfl, rfl, fun _ _ hsame => absurd hsame hq, fun _ => (State.handsAcks_nil _ _).mpr rfl⟩

end Sys2Proof.Machine
end

section
/-! PROOF. A wake trigger at a record (O37), and the events of a record ICLS no longer matches (O38). -/

namespace Sys2Proof.Machine

section
variable {s : State} {i : Slot} {st : Station}

theorem State.raiseShed_eq (h : s.station i = some st) : s.raiseShed i = s.setStation i { st with framesShed := saturate16 st.framesShed } :=
  State.updateStation_eq _ h

theorem exec_wakeTrigger {cause : WakeCause} {frame : Option (Fin 4)} {before after : List Presented}
    (h : s.Presents i st (.trigger cause frame) before after) :
    exec (.wakeTrigger i) s = settle (({ s with presented := before ++ after } : State).iclsTrigger i st cause frame) := by
  obtain ⟨hpresents, hst⟩ := h
  show execWakeTrigger i s = _
  simp only [execWakeTrigger, State.nextPresented_eq hpresents, State.matched_eq_some hst rfl, State.popPresented_eq hpresents]

/-! ### The trigger, state by state (R37, R38) -/

theorem State.iclsTrigger_asleep (hq : ∃ l, st.state = .asleep l) (cause : WakeCause) :
    s.iclsTrigger i st cause none = s.wakeUp i st cause := by
  obtain ⟨l, hq⟩ := hq
  simp only [State.iclsTrigger, hq]

theorem State.iclsTrigger_none (hasleep : ∀ l, st.state ≠ .asleep l) (cause : WakeCause) : s.iclsTrigger i st cause none = s := by
  unfold State.iclsTrigger
  cases hq : st.state with
  | asleep l => exact absurd hq (hasleep l)
  | _ => rfl

theorem State.iclsTrigger_waking (hq : ∃ k held, st.state = .waking k held) (cause : WakeCause) (j : Fin 4) :
    s.iclsTrigger i st cause (some j) = (s.freeIntake j).raiseShed i := by
  obtain ⟨k, held, hq⟩ := hq
  simp only [State.iclsTrigger, hq]

theorem State.iclsTrigger_passes (hasleep : ∀ l, st.state ≠ .asleep l) (hwaking : ∀ k held, st.state ≠ .waking k held) (cause : WakeCause)
    {j : Fin 4} {f : Frame} (hslot : s.icls.slots[j.val] = .triggered f) : s.iclsTrigger i st cause (some j) = s.passOrShed i st j f := by
  have hframe : s.icls.slots[j.val].frame = some f := by rw [hslot]; rfl
  cases hq : st.state with
  | asleep l => exact absurd hq (hasleep l)
  | waking k held => exact absurd hq (hwaking k held)
  | _ => simp only [State.iclsTrigger, hq, hframe]

theorem State.passOrShed_passes (hroom : s.emit.size < 16) (j : Fin 4) (f : Frame) : s.passOrShed i st j f =
    { s with emit := { s.emit with waiting := s.emit.waiting ++ [{ kind := .pass j, port := st.port, segment := st.segment }] }
             icls := { s.icls with slots := tset s.icls.slots j (.passing f) } } := by
  have hroom : s.emit.size < Config.emissionCapacity := hroom
  simp only [State.passOrShed, State.passThrough, Emit.append, if_pos hroom]

theorem State.passOrShed_sheds (hfull : 16 ≤ s.emit.size) (j : Fin 4) (f : Frame) :
    s.passOrShed i st j f = (s.freeIntake j).raiseShed i := by
  have hfull : ¬ s.emit.size < Config.emissionCapacity := Nat.not_lt_of_le hfull
  simp only [State.passOrShed, State.passThrough, Emit.append, if_neg hfull]

theorem State.iclsTrigger_sheds (hasleep : ∀ l, st.state ≠ .asleep l) (cause : WakeCause) {j : Fin 4} {f : Frame}
    (hslot : s.icls.slots[j.val] = .triggered f) (h : (∃ k held, st.state = .waking k held) ∨ 16 ≤ s.emit.size) :
    s.iclsTrigger i st cause (some j) = (s.freeIntake j).raiseShed i := by
  by_cases hwaking : ∃ k held, st.state = .waking k held
  · exact State.iclsTrigger_waking hwaking cause j
  · rw [State.iclsTrigger_passes hasleep (fun k held hq => hwaking ⟨k, held, hq⟩) cause hslot, State.passOrShed_sheds (h.resolve_left hwaking)]

/-! ### The frame a waking holds (R123, R124) -/

/-- The record as the begin of its waking leaves it, before a frame is held. -/
def Station.woken (st : Station) (e : Emit) (cause : WakeCause) (held : Option (Fin 16)) : Station :=
  { st with state := .waking cause held, wakeAttempts := if e.size < Config.emissionCapacity then 1 else 0
            wakesBegun := saturate16 st.wakesBegun }

theorem State.wakeUp_station (s : State) (i : Slot) (st : Station) (cause : WakeCause) :
    (s.wakeUp i st cause).station i = some (st.woken s.emit cause none) := by
  rw [State.wakeUp_eq]
  exact State.setStation_station_self _ _ _

theorem State.wakeUp_generation (s : State) (i : Slot) (st : Station) (cause : WakeCause) :
    (s.wakeUp i st cause).generation i = s.generation i := by
  rw [State.wakeUp_eq]
  exact s.setStation_generation i i (st.woken s.emit cause none)

theorem State.holdFrame_holds {b : Fin 16} (hb : s.hold[b.val] = .free) (hlow : ∀ k < b, s.hold[k.val] ≠ .free) (cause : WakeCause)
    (bytes : List Byte) (h : s.station i = some st) : s.holdFrame i cause bytes =
      { s.setStation i { st with state := .waking cause (some b) } with hold := tset s.hold b (.reserved bytes) } := by
  have hlowest : lowest (fun x => decide (x = HeldBuffer.free)) s.hold = some b :=
    lowest_eq_some (decide_eq_true hb) fun k hk => decide_eq_false (hlow k hk)
  simp only [State.holdFrame, hlowest]
  rw [State.setStationState_eq (by exact h)]
  rfl

theorem State.holdFrame_unavailable (hfull : ∀ b : Fin 16, s.hold[b.val] ≠ .free) (n : RuleNumber) (bytes : List Byte) :
    s.holdFrame i (.rule n) bytes = s.postFor i .holdUnavailable (.rule n) := by
  have hlowest : lowest (fun x => decide (x = HeldBuffer.free)) s.hold = none := by
    rw [lowest_none]
    exact fun k => decide_eq_false (hfull k)
  simp only [State.holdFrame, hlowest]

theorem State.iclsTrigger_holds (hq : ∃ l, st.state = .asleep l) (cause : WakeCause) {j : Fin 4} {f : Frame} {b : Fin 16}
    (hslot : s.icls.slots[j.val] = .triggered f) (hb : s.hold[b.val] = .free) (hlow : ∀ k < b, s.hold[k.val] ≠ .free) :
    s.iclsTrigger i st cause (some j) = State.freeIntake { s.wakeUp i st cause with
      stab := (s.setStation i (st.woken s.emit cause (some b))).stab, hold := tset s.hold b (.reserved f.bytes) } j := by
  obtain ⟨l, hq⟩ := hq
  have hhold : (s.wakeUp i st cause).hold = s.hold := by simp only [State.wakeUp_frame]
  have hset := State.setStation_over (s := s) (t := s.wakeUp i st cause) (x := st.woken s.emit cause none) (by rw [State.wakeUp_eq]; rfl)
    (st.woken s.emit cause (some b))
  simp only [State.iclsTrigger, hq, hslot, IntakeSlot.frame]
  rw [State.holdFrame_holds (by rw [hhold]; exact hb) (by rw [hhold]; exact hlow) cause f.bytes (s.wakeUp_station i st cause), hhold]
  exact congrArg (fun t : State => State.freeIntake { t with hold := tset s.hold b (.reserved f.bytes) } j) hset

theorem State.iclsTrigger_unheld (hq : ∃ l, st.state = .asleep l) (n : RuleNumber) (j : Fin 4) (hfull : ∀ b : Fin 16, s.hold[b.val] ≠ .free) :
    s.iclsTrigger i st (.rule n) (some j) = ((s.wakeUp i st (.rule n)).postFor i .holdUnavailable (.rule n)).freeIntake j := by
  obtain ⟨l, hq⟩ := hq
  have hhold : (s.wakeUp i st (.rule n)).hold = s.hold := by simp only [State.wakeUp_frame]
  simp only [State.iclsTrigger, hq]
  rw [State.holdFrame_unavailable (by rw [hhold]; exact hfull)]

end

/-- Settles O37: each state of the record, with or without a frame, has its equation. -/
theorem wakeTriggerResult : Obligations.WakeTriggerResult := by
  unfold Obligations.WakeTriggerResult
  intro s i st cause frame before after h
  refine ⟨_, exec_wakeTrigger h, ?presented, fun hq => ⟨fun hnone => ?begins, fun j f b hframe hslot hb hlow => ?held,
    fun j n hframe hcause hfull => ?unheld⟩, fun hasleep hnone => ?dropped, fun j f hasleep hwaking hframe hslot hroom => ?passed,
    fun j f hasleep hframe hslot hfull => ?shed⟩
  case presented => simp only [State.drivePins_presented, State.iclsTrigger_frame]
  all_goals subst_vars
  case begins =>
    rw [State.iclsTrigger_asleep hq, State.wakeUp_eq]
    exact ⟨⟨State.onlyStation_of_setStation rfl, rfl, rfl⟩, rfl, rfl⟩
  case held =>
    rw [State.iclsTrigger_holds (s := { s with presented := before ++ after }) hq cause hslot hb hlow, State.wakeUp_eq]
    exact ⟨⟨State.onlyStation_of_setStation rfl, rfl, rfl⟩, rfl, rfl, rfl, rfl⟩
  case unheld =>
    rw [State.iclsTrigger_unheld (s := { s with presented := before ++ after }) hq n j hfull, State.postFor, State.wakeUp_generation, State.wakeUp_eq]
    exact ⟨⟨State.onlyStation_of_setStation rfl, rfl, rfl⟩, rfl, rfl, rfl⟩
  case dropped =>
    rw [State.iclsTrigger_none hasleep]
    rfl
  case passed =>
    rw [State.iclsTrigger_passes (s := { s with presented := before ++ after }) hasleep hwaking cause hslot,
      State.passOrShed_passes (s := { s with presented := before ++ after }) hroom]
    exact ⟨rfl, rfl, rfl⟩
  case shed =>
    rw [State.iclsTrigger_sheds (s := { s with presented := before ++ after }) hasleep cause hslot hfull, State.raiseShed_eq (by exact h.2)]
    exact ⟨rfl, State.onlyStation_of_setStation rfl, rfl⟩

/-! ### The raise of the counter, and void events (R80, R93) -/

section
variable {s : State} {i : Slot} {a : Address} {before after : List Presented} (hvoid : ∀ st, s.station i = some st → st.address ≠ a)
include hvoid

theorem exec_sighting_void (h : s.PresentsFor i a .sighting before after) :
    exec (.sighting i) s = settle { s with presented := before ++ after } := by
  show execSighting i s = _
  simp only [execSighting, State.nextPresented_eq h, State.matched_eq_none hvoid, State.popPresented_eq h]

theorem exec_announcement_void {op : AnnounceOp} {q lease : Half} (h : s.PresentsFor i a (.announcement op q lease) before after) :
    exec (.announcement i) s = settle (State.post { s with presented := before ++ after } .unknownAnnouncer (.address a)) := by
  show execAnnouncement i s = _
  simp only [execAnnouncement, State.nextPresented_eq h, State.matched_eq_none hvoid, State.popPresented_eq h]

theorem exec_wakeTrigger_void {cause : WakeCause} (h : s.PresentsFor i a (.trigger cause none) before after) :
    exec (.wakeTrigger i) s = settle { s with presented := before ++ after } := by
  show execWakeTrigger i s = _
  simp only [execWakeTrigger, State.nextPresented_eq h, State.matched_eq_none hvoid, State.popPresented_eq h]

theorem exec_wakeTrigger_stray {cause : WakeCause} {j : Fin 4} (h : s.PresentsFor i a (.trigger cause (some j)) before after) :
    exec (.wakeTrigger i) s = settle (State.freeIntake { s with presented := before ++ after } j) := by
  show execWakeTrigger i s = _
  simp only [execWakeTrigger, State.nextPresented_eq h, State.matched_eq_none hvoid, State.popPresented_eq h]

theorem exec_shed_void (h : s.PresentsFor i a .shed before after) : exec (.shed i) s = settle { s with presented := before ++ after } := by
  show execShed i s = _
  simp only [execShed, State.nextPresented_eq h, State.matched_eq_none hvoid, State.popPresented_eq h]

end

theorem exec_shed {s : State} {i : Slot} {st : Station} {before after : List Presented} (h : s.Presents i st .shed before after) :
    exec (.shed i) s = settle (({ s with presented := before ++ after } : State).raiseShed i) := by
  obtain ⟨hpresents, hst⟩ := h
  show execShed i s = _
  simp only [execShed, State.nextPresented_eq hpresents, State.matched_eq_some hst rfl, State.popPresented_eq hpresents]

/-- Settles O38: with no record matched the event leaves the list, and a trigger its intake slot. -/
theorem shedAndVoidEvents : Obligations.ShedAndVoidEvents := by
  unfold Obligations.ShedAndVoidEvents
  refine ⟨fun s i st before after h => ?shed, fun s i a kind before after h hvoid => ?void⟩
  case shed =>
    refine ⟨_, exec_shed h, ?_⟩
    rw [State.raiseShed_eq (by exact h.2)]
    exact ⟨rfl, State.onlyStation_of_setStation rfl, rfl⟩
  case void =>
    cases kind with
    | sighting => exact ⟨_, exec_sighting_void hvoid h, rfl, rfl, rfl, rfl⟩
    | announcement op q lease => exact ⟨_, exec_announcement_void hvoid h, rfl, rfl, rfl, rfl⟩
    | trigger cause frame =>
      cases frame with
      | none => exact ⟨_, exec_wakeTrigger_void hvoid h, rfl, rfl, rfl, rfl⟩
      | some j => exact ⟨_, exec_wakeTrigger_stray hvoid h, rfl, rfl, rfl, rfl⟩
    | shed => exact ⟨_, exec_shed_void hvoid h, rfl, rfl, rfl, rfl⟩

end Sys2Proof.Machine
end

section
/-! PROOF. The time bases: leases (O39), wake intervals (O40), milliseconds (O41). -/

namespace Sys2Proof.Machine

/-! ### Leases (R24, R39) -/

section
variable {s : State} {i : Slot} {st : Station}

theorem StationState.passSeconds_asleep (l : LeaseRun) (n : Nat) : (StationState.asleep (some l)).passSeconds n = .asleep (some (l.lower n)) := rfl

theorem StationState.passSeconds_other {q : StationState} (h : ∀ l, q ≠ .asleep (some l)) (n : Nat) : q.passSeconds n = q := by
  cases q with
  | asleep l =>
    cases l with
    | none => rfl
    | some l => exact absurd rfl (h l)
  | _ => rfl

theorem StationState.leaseDue_iff (q : StationState) : q.leaseDue = true ↔ ∃ l, q = .asleep (some l) ∧ l.runOut = true := by
  cases q with
  | asleep l => cases l <;> simp [StationState.leaseDue]
  | _ => simp [StationState.leaseDue]

theorem LeaseRun.lower_runOut (l : LeaseRun) (n : Nat) : (l.lower n).runOut = true ↔ l.runOut = true ∨ l.remaining.toNat ≤ n := by
  unfold LeaseRun.lower
  by_cases h : n < l.remaining.toNat
  · simp [h]
  · simp [h, Nat.le_of_not_lt h]

theorem State.passSeconds_generation (s : State) (n : Nat) (i : Slot) : (s.passSeconds n).generation i = s.generation i := by
  simp [State.generation, Record.passSeconds]

theorem State.expireLease_due (h : s.station i = some st) (hdue : st.state.leaseDue = true) : s.expireLease i = s.wakeUp i st .lease := by
  simp only [State.expireLease, h, hdue, if_true]

theorem State.expireLease_not_due (h : ∀ st, s.station i = some st → st.state.leaseDue = false) : s.expireLease i = s := by
  unfold State.expireLease
  cases hst : s.station i with
  | none => rfl
  | some st => simp only [h st hst, Bool.false_eq_true, if_false]

/-- A record lowered by `n` boundaries is due if its lease had run out, or runs out by then. -/
theorem leaseDue_passSeconds_iff (q : StationState) (n : Nat) :
    (q.passSeconds n).leaseDue = true ↔ ∃ l, q = .asleep (some l) ∧ (l.runOut = true ∨ l.remaining.toNat ≤ n) := by
  rw [StationState.leaseDue_iff]
  by_cases h : ∃ l, q = .asleep (some l)
  · obtain ⟨l, rfl⟩ := h
    simp [StationState.passSeconds_asleep, LeaseRun.lower_runOut]
  · have hother : ∀ l, q ≠ .asleep (some l) := fun l hq => h ⟨l, hq⟩
    simp [StationState.passSeconds_other hother, hother]

end

/-- Settles O39: `lower` at every lease that runs, and the expiry of one that is due. -/
theorem leaseTime : Obligations.LeaseTime := by
  unfold Obligations.LeaseTime
  refine ⟨fun s n i => ⟨(s.passSeconds_generation n i).symm, fun hst => ?_, fun st hst => ⟨fun l hq => ?_, fun hq => ?_⟩⟩,
    fun s => ⟨_, rfl, rfl, rfl⟩, fun s i n => ⟨_, rfl, fun st l hst hq hdue => ?_, fun hnot => ?_⟩⟩
  · rw [State.passSeconds_station, hst]; rfl
  · rw [State.passSeconds_station, hst]
    simp only [Option.map_some, hq, StationState.passSeconds_asleep, LeaseRun.lower]
  · rw [State.passSeconds_station, hst, Option.map_some, StationState.passSeconds_other hq]
  · have hlowered : (s.passSeconds n).station i = some { st with state := st.state.passSeconds n } := by
      rw [State.passSeconds_station, hst]; rfl
    rw [State.expireLease_due hlowered ((leaseDue_passSeconds_iff _ _).mpr ⟨l, hq, hdue⟩), State.wakeUp_eq]
    refine ⟨⟨State.onlyStation_of_setStation rfl, rfl, rfl⟩, ?_, rfl⟩
    simp only [State.drivePins_nq, State.wakeBegunPost, State.passSeconds_generation, State.passSeconds_nq]
  · have hidle : (s.passSeconds n).expireLease i = s.passSeconds n := State.expireLease_not_due fun st hst => by
      rw [State.passSeconds_station] at hst
      obtain ⟨x, hx, rfl⟩ := Option.map_eq_some_iff.mp hst
      rw [← Bool.not_eq_true, leaseDue_passSeconds_iff]
      rintro ⟨l, hq, hdue⟩
      obtain ⟨hrun, hlong⟩ := hnot x l hx hq
      exact hdue.elim (fun h => by rw [hrun] at h; cases h) (Nat.not_le_of_lt hlong)
    rw [hidle]
    exact ⟨rfl, rfl⟩

/-! ### Wake intervals (R113 to R116) -/

section
variable {s : State} {i : Slot} {st : Station}

theorem State.passUnits_wake_get (s : State) (n : Nat) (i : Slot) :
    (s.passUnits n).wake[i.val] = s.wake[i.val].map fun c => { c with remaining := c.remaining - n } := by
  simp

theorem State.expireInterval_runOut {c : WakingContext} (hc : s.wake[i.val] = some c) (hzero : c.remaining = 0) :
    s.expireInterval i = s.takeInterval i c.address := by
  simp only [State.expireInterval, hc, hzero, if_true]

theorem State.expireInterval_running (h : ∀ c, s.wake[i.val] = some c → c.remaining ≠ 0) : s.expireInterval i = s := by
  unfold State.expireInterval
  cases hc : s.wake[i.val] with
  | none => rfl
  | some c => exact if_neg (h c hc)

/-- R116: a further attempt and a restart of the timer. -/
theorem State.takeInterval_attempts (hst : s.station i = some st) (hlimit : st.wakeAttempts < s.mport.settings.wakeAttemptLimit.toNat)
    (a : Address) : s.takeInterval i a =
      { s.setStation i { st with
          wakeAttempts := if s.emit.size < Config.emissionCapacity then st.wakeAttempts + 1 else st.wakeAttempts } with
        emit := s.emit.joined { kind := .wake i a, port := st.port, segment := st.segment }
        wake := tset s.wake i (some { address := a, remaining := s.mport.settings.wakeInterval.toNat }) } := by
  simp only [State.takeInterval, hst, if_pos hlimit, State.attempt_eq hst]
  rfl

/-- R40: the waking ends unanswered. -/
theorem State.takeInterval_exhausts (hst : s.station i = some st) (hlimit : s.mport.settings.wakeAttemptLimit.toNat ≤ st.wakeAttempts)
    {cause : WakeCause} {held : Option (Fin 16)} (hq : st.state = .waking cause held) (a : Address) : s.takeInterval i a =
      { s.setStation i { st with state := .leaving .exhausted (some cause) } with
        wake := tset s.wake i none, emit := s.emit.withdraw i st.address, hold := (s.discardHeld held).hold
        steer := s.steer.withRequest .restore i st
        nq := s.nq.post { kind := .wakeFailed, subject := some (i, s.generation i), detail := .cause cause } } := by
  have hcancelled : (s.cancelWaking i).station i = some st := hst
  have hgeneration : (s.setStation i { st with state := .leaving .exhausted (some cause) }).generation i = s.generation i :=
    State.setStation_generation _ _ _ _
  simp only [State.takeInterval, hst, if_neg (Nat.not_lt_of_le hlimit), State.exhaustWaking, hcancelled, hq]
  rw [State.setStationState_eq (st := st) (by cases held <;> exact hst), State.place_eq, State.postFor, ← hgeneration]
  cases held <;> rfl

theorem State.takeInterval_wake (s : State) (i : Slot) (a : Address) : ∃ x, (s.takeInterval i a).wake = tset s.wake i x := by
  unfold State.takeInterval
  split
  · exact ⟨none, rfl⟩
  · next st _ =>
    split
    · exact ⟨_, by simp only [State.startInterval_wake, State.attempt_frame]; rfl⟩
    · exact ⟨none, by simp only [State.exhaustWaking_frame, State.cancelWaking_wake]⟩

/-- An interval expiry leaves the contexts of the other slots. -/
theorem State.expireInterval_wake (s : State) (i : Slot) : ∃ x, (s.expireInterval i).wake = tset s.wake i x := by
  unfold State.expireInterval
  split
  · split
    · exact s.takeInterval_wake i _
    · exact ⟨_, (tset_get_id _ i).symm⟩
  · exact ⟨_, (tset_get_id _ i).symm⟩

end

/-- Settles O40: the boundaries pass at every context, and the slot's own timer may have run out. -/
theorem intervalExpiryResult : Obligations.IntervalExpiryResult := by
  unfold Obligations.IntervalExpiryResult
  intro s i n
  refine ⟨((s.passUnits n).expireInterval i).drivePins, rfl, fun k hk => ?others, fun hrunning => ?running,
    fun c st cause held hc hout hst haddress hq => ⟨fun hlimit => ?attempts, fun hlimit => ?exhausts⟩⟩
  case others =>
    obtain ⟨x, hx⟩ := (s.passUnits n).expireInterval_wake i
    rw [← s.passUnits_wake_get n k]
    exact (congrArg (·[k.val]) hx).trans (tset_get_ne _ _ (Ne.symm hk))
  case running =>
    have hidle : (s.passUnits n).expireInterval i = s.passUnits n := State.expireInterval_running fun c hc => by
      rw [s.passUnits_wake_get n i] at hc
      obtain ⟨x, hx, rfl⟩ := Option.map_eq_some_iff.mp hc
      exact Nat.sub_ne_zero_of_lt (hrunning x hx)
    rw [hidle]
    exact ⟨s.passUnits_wake_get n i, rfl⟩
  all_goals
    have hc' : (s.passUnits n).wake[i.val] = some { c with remaining := c.remaining - n } := by rw [s.passUnits_wake_get n i, hc]; rfl
    rw [State.expireInterval_runOut hc' (Nat.sub_eq_zero_of_le hout)]
  case attempts =>
    rw [State.takeInterval_attempts (s := s.passUnits n) hst hlimit, haddress]
    exact ⟨tset_get_self _ _ _, rfl, State.onlyStation_of_setStation rfl, rfl⟩
  case exhausts =>
    rw [State.takeInterval_exhausts (s := s.passUnits n) hst hlimit hq]
    exact ⟨tset_get_self _ _ _, s.emit.withdraw_eq i st.address, (s.passUnits n).discardHeld_hold held,
      State.onlyStation_of_setStation rfl, rfl, rfl, rfl⟩

/-! ### Milliseconds (R153, R154, R161, R196) -/

section
variable {s : State} {f : InFlight}

theorem not_running {n k : Nat} (hf : s.steer.inFlight = some f) (hk : s.steer.ackTimer = some k) (hn : k ≤ n) :
    ¬ (s.steer.inFlight = none ∨ s.steer.ackTimer = none ∨ ∃ k, s.steer.ackTimer = some k ∧ n < k) := by
  simp [hf, hk, hn]

theorem runOut_of_not_running {n : Nat} (h : ¬ (s.steer.inFlight = none ∨ s.steer.ackTimer = none ∨ ∃ k, s.steer.ackTimer = some k ∧ n < k)) :
    ∃ f k, s.steer.inFlight = some f ∧ s.steer.ackTimer = some k ∧ k ≤ n := by
  simp only [not_or, not_exists, not_and, Nat.not_lt] at h
  obtain ⟨hsome, htimer, hout⟩ := h
  obtain ⟨f, hf⟩ := Option.ne_none_iff_exists'.mp hsome
  obtain ⟨k, hk⟩ := Option.ne_none_iff_exists'.mp htimer
  exact ⟨f, k, hf, hk, hout k hk⟩

theorem exec_ackTimeout_runOut {n k : Nat} (hf : s.steer.inFlight = some f) (hk : s.steer.ackTimer = some k) (hn : k ≤ n) :
    exec (.ackTimeout n) s = settle ((s.passMilliseconds n).takeTimeout f) := by
  have htimer : (s.passMilliseconds n).steer.ackTimer = some 0 := by
    simp only [State.passMilliseconds_steer, hk, Option.map_some, Nat.sub_eq_zero_of_le hn]
  have hinFlight : (s.passMilliseconds n).steer.inFlight = some f := hf
  show execAckTimeout n s = _
  simp only [execAckTimeout, hinFlight, htimer]

theorem exec_ackTimeout_running {n : Nat}
    (h : s.steer.inFlight = none ∨ s.steer.ackTimer = none ∨ ∃ k, s.steer.ackTimer = some k ∧ n < k) :
    exec (.ackTimeout n) s = settle (s.passMilliseconds n) := by
  show execAckTimeout n s = _
  unfold execAckTimeout
  simp only []
  split
  · next f hf hzero =>
    obtain ⟨k, hk, hzero⟩ := Option.map_eq_some_iff.mp hzero
    exact absurd h (not_running hf hk (Nat.sub_eq_zero_iff_le.mp hzero))
  · rfl

theorem State.takeTimeout_repeats (h : f.retries < s.mport.settings.steerRetryLimit.toNat) : s.takeTimeout f = s.resend f (f.retries + 1) :=
  if_pos h

theorem State.takeTimeout_linkDown (h : s.mport.settings.steerRetryLimit.toNat ≤ f.retries) (hmode : s.steer.mode ≠ .stopping) :
    s.takeTimeout f = { s with
      steer := { s.steer with link := .down, ackTimer := none }
      nq := s.nq.post { kind := .steerLinkDown, subject := none, detail := .request f.body.kind f.sequence } } := by
  rw [State.takeTimeout, if_neg (Nat.not_lt_of_le h), State.exhaustRetries, if_neg hmode]
  rfl

theorem State.takeTimeout_stops (h : s.mport.settings.steerRetryLimit.toNat ≤ f.retries) (hmode : s.steer.mode = .stopping) :
    s.takeTimeout f = { s with
      steer := { s.steer with mode := .stopped, link := .idle, inFlight := none, ackTimer := none, deferredStart := s.mport.run }
      nq := (s.nq.post { kind := .modeChanged, subject := none, detail := .mode .stopped }).post
        { kind := .steerLinkDown, subject := none, detail := .request f.body.kind f.sequence } } := by
  rw [State.takeTimeout, if_neg (Nat.not_lt_of_le h), State.exhaustRetries, if_pos hmode]
  rfl

end

/-- A timeout touches the link, the notices and the messages sent alone. -/
theorem State.takeTimeout_changes (s : State) (f : InFlight) :
    ∃ steer nq out, s.takeTimeout f = { s with steer := steer, nq := nq, out := out } := by
  by_cases h : f.retries < s.mport.settings.steerRetryLimit.toNat
  · exact ⟨_, _, _, State.takeTimeout_repeats h⟩
  · by_cases hmode : s.steer.mode = .stopping
    · exact ⟨_, _, _, State.takeTimeout_stops (Nat.le_of_not_lt h) hmode⟩
    · exact ⟨_, _, _, State.takeTimeout_linkDown (Nat.le_of_not_lt h) hmode⟩

/-- Settles O41: a timer that has run out is taken, and what that does depends on the retries and the mode. -/
theorem millisecondTime : Obligations.MillisecondTime := by
  unfold Obligations.MillisecondTime
  refine ⟨fun s n => ?timeout, fun s c n hc => ?ages⟩
  case ages =>
    rcases hc with ⟨rfl, rfl⟩ | rfl
    all_goals exact ⟨_, rfl, rfl, rfl, rfl⟩
  case timeout =>
    intro aged
    by_cases hrun : s.steer.inFlight = none ∨ s.steer.ackTimer = none ∨ ∃ k, s.steer.ackTimer = some k ∧ n < k
    · exact ⟨_, exec_ackTimeout_running hrun, rfl, fun _ => ⟨rfl, rfl, rfl⟩, fun f k hf hk hn => absurd hrun (not_running hf hk hn)⟩
    · obtain ⟨f, k, hf, hk, hn⟩ := runOut_of_not_running hrun
      refine ⟨_, exec_ackTimeout_runOut hf hk hn, ?_, fun h => absurd h hrun, fun f' k' hf' _ _ => ?_⟩
      · obtain ⟨steer, nq, out, h⟩ := (s.passMilliseconds n).takeTimeout_changes f
        rw [h]
        rfl
      · cases hf.symm.trans hf'
        refine ⟨fun h => ?_, fun h hmode => ?_, fun h hmode => ?_⟩
        · rw [State.takeTimeout_repeats (s := s.passMilliseconds n) h]
          exact ⟨rfl, rfl, rfl⟩
        · rw [State.takeTimeout_linkDown (s := s.passMilliseconds n) h hmode]
          exact ⟨rfl, rfl, rfl⟩
        · rw [State.takeTimeout_stops (s := s.passMilliseconds n) h hmode]
          exact ⟨rfl, rfl, rfl⟩

end Sys2Proof.Machine
end

section
/-! PROOF. The bytes the part sends and takes (O42): the frames of RESP, the messages of the steering link. -/

namespace Sys2Proof.Machine

/-! ### Frames of 60 bytes in pieces (R102 to R105) -/

/-- A whole piece of a frame is read at its offset, before the zeros that pad it. -/
theorem fieldAt_framePiece {pieces : List (List Byte)} {piece : List Byte} {total len : Nat} (n : Nat) {off : Nat}
    (htotal : (pieces.map List.length).sum = total) (hoff : ((pieces.map List.length).take n).sum = off)
    (hpiece : pieces[n]? = some piece) (hlen : piece.length = len) (hin : off + len ≤ total) (size : Nat) :
    fieldAt (padTo size pieces.flatten) off len = fieldAt piece 0 len := by
  rw [fieldAt_padTo _ _ _ (by rw [List.length_flatten, htotal]; exact hin)]
  exact fieldAt_piece n 0 hoff hpiece (by omega)

theorem byteAt_frame_end {pieces : List (List Byte)} {total k : Nat} (htotal : (pieces.map List.length).sum = total) (hk : total ≤ k)
    (size : Nat) : byteAt (padTo size pieces.flatten) k = 0#8 := by
  rw [byteAt_padTo, byteAt_of_length_le (by rw [List.length_flatten, htotal]; exact hk)]

theorem ofNat_fieldAt {w len : Nat} {l : List Byte} {off : Nat} {x : BitVec w} (h : fieldAt l off len = x.toNat) :
    BitVec.ofNat w (fieldAt l off len) = x := by rw [h, BitVec.ofNat_toNat, BitVec.setWidth_eq]

section
variable (job : AnswerJob) (type : Half) (op code : Byte) (a b : Identifier)

/-- The fields of a REPLY or PROBE_REPLY, in order. -/
def answerPieces : List (List Byte) :=
  [beBytes 6 job.sender.toNat, beBytes 6 job.address.toNat, halfBytes type, [op], [0x80#8 ||| code], beBytes 6 job.address.toNat,
    beBytes 4 a.toNat, beBytes 4 b.toNat]

theorem answerFrame_eq : answerFrame job type op code a b = padTo 60 (answerPieces job type op code a b).flatten := by
  simp only [answerFrame, frameHeader, answerPieces, List.flatten_cons, List.flatten_nil, List.append_nil, List.append_assoc,
    List.cons_append, List.nil_append]
  rfl

theorem answerPieces_lengths : (answerPieces job type op code a b).map List.length = [6, 6, 2, 1, 1, 6, 4, 4] := by
  simp [answerPieces, halfBytes_length]

theorem answerPieces_total : ((answerPieces job type op code a b).map List.length).sum = 30 := by rw [answerPieces_lengths]; rfl

theorem answerFrame_field (n : Nat) {off len : Nat} {piece : List Byte} (hpiece : (answerPieces job type op code a b)[n]? = some piece)
    (hlen : piece.length = len) (hoff : ([6, 6, 2, 1, 1, 6, 4, 4].take n).sum = off) (hin : off + len ≤ 30) :
    fieldAt (answerFrame job type op code a b) off len = fieldAt piece 0 len := by
  rw [answerFrame_eq]
  exact fieldAt_framePiece n (answerPieces_total job type op code a b) (by rw [answerPieces_lengths]; exact hoff) hpiece hlen hin 60

theorem answerFrame_length : (answerFrame job type op code a b).length = 60 := by
  rw [answerFrame_eq, padTo_length]
  rw [List.length_flatten, answerPieces_total]
  decide

end

section
variable (job : AckJob) (part : Address) (type : Half)

/-- The fields of a SLEEP_ACK, in order. -/
def sleepAckPieces : List (List Byte) :=
  [beBytes 6 job.address.toNat, beBytes 6 part.toNat, halfBytes type, [3#8], [job.code.number], halfBytes job.sequence, halfBytes job.granted]

theorem sleepAckFrame_eq : sleepAckFrame job part type = padTo 60 (sleepAckPieces job part type).flatten := by
  simp only [sleepAckFrame, frameHeader, sleepAckPieces, List.flatten_cons, List.flatten_nil, List.append_nil, List.append_assoc,
    List.cons_append, List.nil_append]
  rfl

theorem sleepAckPieces_lengths : (sleepAckPieces job part type).map List.length = [6, 6, 2, 1, 1, 2, 2] := by
  simp [sleepAckPieces, halfBytes_length]

theorem sleepAckPieces_total : ((sleepAckPieces job part type).map List.length).sum = 20 := by rw [sleepAckPieces_lengths]; rfl

theorem sleepAckFrame_field (n : Nat) {off len : Nat} {piece : List Byte} (hpiece : (sleepAckPieces job part type)[n]? = some piece)
    (hlen : piece.length = len) (hoff : ([6, 6, 2, 1, 1, 2, 2].take n).sum = off) (hin : off + len ≤ 20) :
    fieldAt (sleepAckFrame job part type) off len = fieldAt piece 0 len := by
  rw [sleepAckFrame_eq]
  exact fieldAt_framePiece n (sleepAckPieces_total job part type) (by rw [sleepAckPieces_lengths]; exact hoff) hpiece hlen hin 60

theorem sleepAckFrame_length : (sleepAckFrame job part type).length = 60 := by
  rw [sleepAckFrame_eq, padTo_length]
  rw [List.length_flatten, sleepAckPieces_total]
  decide

end

/-! ### Sums and the messages of the link (R144, R145) -/

theorem byteSum_eq (l : List Byte) : byteSum l = (l.map (·.toNat)).sum % 256 := by
  have hfold : ∀ (l : List Byte) (n : Nat), l.foldl (fun n b => n + b.toNat) n = n + (l.map (·.toNat)).sum := by
    intro l
    induction l with
    | nil => simp
    | cons b l ih => intro n; simp [ih, Nat.add_assoc]
  rw [byteSum, hfold, Nat.zero_add]

/-- Bytes with their check byte add up to 255. -/
theorem sum_checked (l : List Byte) : ((l ++ [checkByte l]).map (·.toNat)).sum % 256 = 255 := by
  have hcheck : (checkByte l).toNat = 255 - (l.map (·.toNat)).sum % 256 := by
    rw [checkByte, byteSum_eq, BitVec.toNat_ofNat, Nat.mod_eq_of_lt (by omega)]
  simp only [List.map_append, List.map_cons, List.map_nil, List.sum_append, List.sum_cons, List.sum_nil, hcheck]
  omega

theorem RequestBody.fields_length (body : RequestBody) : body.fields.length = 13 := by
  cases body <;> simp [RequestBody.fields]

theorem requestMessage_eq (body : RequestBody) (q : BitVec 4) :
    requestMessage body q = [body.kindByte] ++ ([q.setWidth 8] ++ (body.fields ++ [checkByte ([body.kindByte, q.setWidth 8] ++ body.fields)])) := rfl

theorem requestMessage_kind (body : RequestBody) (q : BitVec 4) : byteAt (requestMessage body q) 0 = body.kindByte := rfl

theorem requestMessage_sequence (body : RequestBody) (q : BitVec 4) : fieldAt (requestMessage body q) 1 1 = q.toNat := by
  have hbyte : byteAt (requestMessage body q) 1 = q.setWidth 8 := rfl
  rw [fieldAt_one, hbyte, BitVec.toNat_setWidth, Nat.mod_eq_of_lt (by have := q.isLt; omega)]

theorem requestMessage_field (body : RequestBody) (q : BitVec 4) {off len : Nat} (h : off + len ≤ 13) :
    fieldAt (requestMessage body q) (2 + off) len = fieldAt body.fields off len := by
  rw [requestMessage, fieldAt_append_left (by simp [RequestBody.fields_length]; omega),
    fieldAt_append_right (by simp), show 2 + off - [body.kindByte, q.setWidth 8].length = off from Nat.add_sub_cancel_left 2 off]

theorem requestMessage_byte (body : RequestBody) (q : BitVec 4) {k : Nat} (hlow : 2 ≤ k) (hhigh : k < 15) :
    byteAt (requestMessage body q) k = byteAt body.fields (k - 2) := by
  refine byteAt_eq_of_fieldAt ?_
  rw [← requestMessage_field body q (by omega), Nat.add_sub_cancel' hlow]

/-- The fields of a station's request. -/
def stationFields (r : SteerRequest) : List (List Byte) :=
  [beBytes 6 r.address.toNat, beBytes 2 r.segment.toNat,
    [match r.kind with
     | .divert => 0#8
     | .restore => BitVec.ofNat 8 r.port.toNat], List.replicate 4 0#8]

theorem RequestBody.fields_station (r : SteerRequest) : (RequestBody.station r).fields = (stationFields r).flatten := by
  cases hkind : r.kind <;>
    simp only [RequestBody.fields, stationFields, hkind, List.flatten_cons, List.flatten_nil, List.append_nil, List.append_assoc]

theorem stationFields_lengths (r : SteerRequest) : (stationFields r).map List.length = [6, 2, 1, 4] := by simp [stationFields]

theorem requestMessage_stationField (r : SteerRequest) (q : BitVec 4) (n : Nat) {off : Nat} (a len : Nat) {piece : List Byte}
    (hpiece : (stationFields r)[n]? = some piece) (hoff : ([6, 2, 1, 4].take n).sum = off) (hin : a + len ≤ piece.length)
    (hend : off + a + len ≤ 13) : fieldAt (requestMessage (.station r) q) (2 + (off + a)) len = fieldAt piece a len := by
  rw [requestMessage_field _ q hend, RequestBody.fields_station]
  exact fieldAt_piece n a (by rw [stationFields_lengths]; exact hoff) hpiece hin

theorem nakReason_eq_some (b : Byte) (reason : NakReason) : nakReason b = some reason ↔ b = (match reason with
    | .full => 1#8
    | .unknown => 2#8
    | .malformed => 3#8) := by
  unfold nakReason
  split
  case h_1 h => rw [BitVec.eq_of_toNat_eq (y := 1#8) h]; cases reason <;> decide
  case h_2 h => rw [BitVec.eq_of_toNat_eq (y := 2#8) h]; cases reason <;> decide
  case h_3 h => rw [BitVec.eq_of_toNat_eq (y := 3#8) h]; cases reason <;> decide
  case h_4 h1 h2 h3 =>
    refine ⟨nofun, fun h => ?_⟩
    cases reason <;> (subst h; contradiction)

/-- A run that holds a whole message whose bytes add up. -/
def Checked (run : List Byte) : Prop := 16 ≤ run.length ∧ ((run.take 16).map (·.toNat)).sum % 256 = 255

theorem decodeAnswer_unchecked {run : List Byte} (h : ¬ Checked run) : decodeAnswer run = none := by
  have hbad : (run.take 16).length < 16 ∨ byteSum (run.take 16) ≠ 255 := by
    rw [List.length_take, byteSum_eq]
    by_cases hlen : 16 ≤ run.length
    · exact Or.inr fun hsum => h ⟨hlen, hsum⟩
    · exact Or.inl (by omega)
  exact if_pos hbad

section
variable {run : List Byte} (h : Checked run)
include h

theorem Checked.passes : ¬ ((run.take 16).length < 16 ∨ byteSum (run.take 16) ≠ 255) := by
  obtain ⟨hlen, hsum⟩ := h
  rw [List.length_take, byteSum_eq, hsum]
  omega

theorem decodeAnswer_ack (hkind : byteAt run 0 = 8#8) : decodeAnswer run = some (.ack (byteAt run 1)) := by
  simp only [decodeAnswer, if_neg h.passes, byteAt_take (l := run) (n := 16) (k := 0) (by decide),
    byteAt_take (l := run) (n := 16) (k := 1) (by decide), hkind]
  rfl

theorem decodeAnswer_nak (hkind : byteAt run 0 = 9#8) : decodeAnswer run = (nakReason (byteAt run 11)).map (.nak (byteAt run 1)) := by
  simp only [decodeAnswer, if_neg h.passes, byteAt_take (l := run) (n := 16) (k := 0) (by decide),
    byteAt_take (l := run) (n := 16) (k := 1) (by decide), byteAt_take (l := run) (n := 16) (k := 11) (by decide), hkind]
  rfl

theorem decodeAnswer_other (hack : byteAt run 0 ≠ 8#8) (hnak : byteAt run 0 ≠ 9#8) : decodeAnswer run = none := by
  simp only [decodeAnswer, if_neg h.passes, byteAt_take (l := run) (n := 16) (k := 0) (by decide)]
  split
  case h_1 heq => exact absurd (BitVec.eq_of_toNat_eq (y := 8#8) heq) hack
  case h_2 heq => exact absurd (BitVec.eq_of_toNat_eq (y := 9#8) heq) hnak
  case h_3 => rfl

end

theorem decodeAnswer_eq_ack_iff (run : List Byte) (q : Byte) :
    decodeAnswer run = some (.ack q) ↔ Checked run ∧ byteAt run 0 = 8#8 ∧ byteAt run 1 = q := by
  by_cases h : Checked run
  · by_cases hack : byteAt run 0 = 8#8
    · simp [decodeAnswer_ack h hack, h, hack]
    · by_cases hnak : byteAt run 0 = 9#8
      · simp [decodeAnswer_nak h hnak, hack]
      · simp [decodeAnswer_other h hack hnak, hack]
  · simp [decodeAnswer_unchecked h, h]

theorem decodeAnswer_eq_nak_iff (run : List Byte) (q : Byte) (reason : NakReason) :
    decodeAnswer run = some (.nak q reason) ↔
      Checked run ∧ byteAt run 0 = 9#8 ∧ byteAt run 1 = q ∧ nakReason (byteAt run 11) = some reason := by
  by_cases h : Checked run
  · by_cases hnak : byteAt run 0 = 9#8
    · simp [decodeAnswer_nak h hnak, h, hnak, and_comm]
    · by_cases hack : byteAt run 0 = 8#8
      · simp [decodeAnswer_ack h hack, hnak]
      · simp [decodeAnswer_other h hack hnak, hnak]
  · simp [decodeAnswer_unchecked h, h]

/-- Settles O42: each field is a piece of its frame or message; the check byte makes the sum, and what is taken is checked by it. -/
theorem wireFormats : Obligations.WireFormats := by
  unfold Obligations.WireFormats
  refine ⟨⟨fun job type op code a b => ?answer, fun job part type => ?ack, fun job st type code => ?bytes⟩,
    fun body q => ?message, fun run q => ⟨?takenAck, fun reason => ?takenNak⟩⟩
  case answer =>
    refine ⟨answerFrame_length .., ofNat_fieldAt ?_, ofNat_fieldAt ?_, ofNat_fieldAt ?_, byteAt_of_field ?_, byteAt_of_field ?_, ?_, ?_, ?_,
      fun k hk => ?_⟩
    · exact (answerFrame_field job type op code a b 0 rfl (beBytes_length _ _) rfl (by decide)).trans (fieldAt_beBytes job.sender.isLt)
    · exact (answerFrame_field job type op code a b 1 rfl (beBytes_length _ _) rfl (by decide)).trans (fieldAt_beBytes job.address.isLt)
    · exact (answerFrame_field job type op code a b 2 rfl (halfBytes_length _) rfl (by decide)).trans (fieldAt_halfBytes type)
    · exact answerFrame_field job type op code a b 3 rfl rfl rfl (by decide)
    · exact answerFrame_field job type op code a b 4 rfl rfl rfl (by decide)
    · exact (answerFrame_field job type op code a b 5 rfl (beBytes_length _ _) rfl (by decide)).trans (fieldAt_beBytes job.address.isLt)
    · exact (answerFrame_field job type op code a b 6 rfl (beBytes_length _ _) rfl (by decide)).trans (fieldAt_beBytes a.isLt)
    · exact (answerFrame_field job type op code a b 7 rfl (beBytes_length _ _) rfl (by decide)).trans (fieldAt_beBytes b.isLt)
    · rw [answerFrame_eq]
      exact byteAt_frame_end (answerPieces_total job type op code a b) hk 60
  case ack =>
    refine ⟨sleepAckFrame_length .., ofNat_fieldAt ?_, ofNat_fieldAt ?_, ofNat_fieldAt ?_, byteAt_of_field ?_, byteAt_of_field ?_, ?_, ?_,
      fun k hk => ?_⟩
    · exact (sleepAckFrame_field job part type 0 rfl (beBytes_length _ _) rfl (by decide)).trans (fieldAt_beBytes job.address.isLt)
    · exact (sleepAckFrame_field job part type 1 rfl (beBytes_length _ _) rfl (by decide)).trans (fieldAt_beBytes part.isLt)
    · exact (sleepAckFrame_field job part type 2 rfl (halfBytes_length _) rfl (by decide)).trans (fieldAt_halfBytes type)
    · exact sleepAckFrame_field job part type 3 rfl rfl rfl (by decide)
    · exact sleepAckFrame_field job part type 4 rfl rfl rfl (by decide)
    · exact (sleepAckFrame_field job part type 5 rfl (halfBytes_length _) rfl (by decide)).trans (fieldAt_halfBytes job.sequence)
    · exact (sleepAckFrame_field job part type 6 rfl (halfBytes_length _) rfl (by decide)).trans (fieldAt_halfBytes job.granted)
    · rw [sleepAckFrame_eq]
      exact byteAt_frame_end (sleepAckPieces_total job part type) hk 60
  case bytes =>
    refine ⟨fun target hkind => ?_, fun hkind => ⟨fun hnone => ?_, fun l rest hids => ?_⟩⟩ <;> simp only [answerBytes, hkind]
    · rw [hnone]
      rfl
    · rw [hids]
      rfl
  case message =>
    refine ⟨by simp [requestMessage, RequestBody.fields_length], sum_checked _, requestMessage_sequence body q, ?_, ?_⟩
    · rintro rfl
      refine ⟨rfl, fun k hlow hhigh => ?_⟩
      rw [requestMessage_byte _ _ hlow hhigh]
      exact byteAt_replicate_zero 13 (k - 2)
    · rintro r rfl
      refine ⟨by cases hk : r.kind <;> simp [requestMessage_kind, RequestBody.kindByte, hk], ?_, ?_, ?_, fun k hlow hhigh => ?_⟩
      · exact (requestMessage_stationField r q 0 0 6 rfl rfl (by simp) (by decide)).trans (fieldAt_beBytes r.address.isLt)
      · exact (requestMessage_stationField r q 1 0 2 rfl rfl (by simp) (by decide)).trans
          (fieldAt_beBytes (Nat.lt_trans r.segment.isLt (by decide)))
      · refine (requestMessage_stationField r q 2 0 1 rfl rfl (by simp) (by decide)).trans ?_
        cases r.kind with
        | divert => rfl
        | restore => exact fieldAt_single (Nat.lt_trans r.port.isLt (by decide))
      · obtain ⟨a, rfl⟩ := Nat.exists_eq_add_of_le hlow
        have hzero := byteAt_eq_of_fieldAt (requestMessage_stationField r q 3 (off := 9) a 1 (piece := List.replicate 4 0#8)
          rfl rfl (by simp; omega) (by omega))
        rw [show 11 + a = 2 + (9 + a) by omega]
        exact hzero.trans (byteAt_replicate_zero 4 a)
  case takenAck => rw [decodeAnswer_eq_ack_iff, Checked, and_assoc]
  case takenNak => cases reason <;> rw [decodeAnswer_eq_nak_iff, nakReason_eq_some, Checked, and_assoc]

end Sys2Proof.Machine
end

section
/-! PROOF. Frames out: the answer and acknowledgement jobs (O43), the emission port (O44), the sending of requests (O45). -/

namespace Sys2Proof.Machine

/-! ### Answer jobs (R98 to R101) -/

section
variable {s : State} {job : AnswerJob} {st : Station}

theorem StationState.answerCode_eq_some {q : StationState} {code : Byte}
    (h : (∃ l, q = .asleep l) ∧ code = 1#8 ∨ (∃ cause held, q = .waking cause held) ∧ code = 2#8) : q.answerCode = some code := by
  rcases h with ⟨⟨l, rfl⟩, rfl⟩ | ⟨⟨cause, held, rfl⟩, rfl⟩ <;> rfl

theorem StationState.answerCode_eq_none {q : StationState} (hasleep : ∀ l, q ≠ .asleep l) (hwaking : ∀ cause held, q ≠ .waking cause held) :
    q.answerCode = none := by
  rw [← Option.not_isSome_iff_eq_none, StationState.answerCode_isSome_iff]
  rintro (⟨l, h⟩ | ⟨cause, held, h⟩)
  · exact hasleep l h
  · exact hwaking cause held h

theorem State.answer_void (h : ∀ st, s.station job.slot = some st → st.address = job.address →
    (∀ l, st.state ≠ .asleep l) ∧ ∀ cause held, st.state ≠ .waking cause held) : s.answer job = s := by
  unfold State.answer
  cases hm : s.matched job.slot job.address with
  | none => rfl
  | some st =>
    obtain ⟨hst, haddress⟩ := State.matched_some hm
    obtain ⟨hasleep, hwaking⟩ := h st hst haddress
    simp only [StationState.answerCode_eq_none hasleep hwaking]

section
variable (hst : s.station job.slot = some st) (haddress : st.address = job.address) {code : Byte} (hcode : st.state.answerCode = some code)
include hst haddress hcode

theorem State.answer_dropped {why : DropCause}
    (hclaim : s.claimAnswer (answerBytes job st s.mport.settings.queryType code) job.port job.segment = .error why) :
    s.answer job = s.dropAnswer job.kind.dropped why := by
  simp only [State.answer, State.matched_eq_some hst haddress, hcode, hclaim]

theorem State.answer_sent {b : Fin 8} (hb : s.resp.buffers[b.val] = none) (hlow : ∀ k < b, s.resp.buffers[k.val] ≠ none)
    (hroom : s.emit.size < 16) : s.answer job = { s.setStation job.slot { st with answersSent := saturate16 st.answersSent } with
      emit := { s.emit with waiting := s.emit.waiting ++ [{ kind := .answer b, port := job.port, segment := job.segment }] }
      resp := { s.resp with
        buffers := tset s.resp.buffers b (some (answerBytes job st s.mport.settings.queryType code)) } } := by
  simp only [State.answer, State.matched_eq_some hst haddress, hcode, State.claimAnswer_eq_ok hb hlow hroom]
  exact State.updateStation_eq _ hst

end

/-- The two rows of the answer jobs, each on a job of its kind. -/
theorem exec_answerJob {c : Instr} {rest : List AnswerJob} (hjobs : s.resp.answerJobs = job :: rest)
    (hc : c = .replyJob ∧ (∃ target, job.kind = .reply target) ∨ c = .probeReplyJob ∧ job.kind = .probeReply) :
    exec c s = settle (State.answer { s with resp := { s.resp with answerJobs := rest } } job) := by
  have hpop : s.popAnswerJob = { s with resp := { s.resp with answerJobs := rest } } := by simp only [State.popAnswerJob, hjobs, List.tail_cons]
  rcases hc with ⟨rfl, target, hkind⟩ | ⟨rfl, hkind⟩
  · show execReplyJob s = _
    simp only [execReplyJob, hjobs, hkind, hpop]
  · show execProbeReplyJob s = _
    simp only [execProbeReplyJob, hjobs, hkind, hpop]

/-- Settling a job leaves the lists of jobs. -/
theorem State.answer_jobs (s : State) (job : AnswerJob) :
    (s.answer job).resp.answerJobs = s.resp.answerJobs ∧ (s.answer job).resp.ackJobs = s.resp.ackJobs := by
  unfold State.answer
  split
  · exact ⟨rfl, rfl⟩
  · split
    · exact ⟨rfl, rfl⟩
    · split
      · exact ⟨rfl, rfl⟩
      · next t h =>
        obtain ⟨b, -, -, rfl⟩ := State.claimAnswer_ok h
        simp only [State.updateStation_frame, and_self]

end

/-! ### Acknowledgement jobs (R104, R106) -/

section
variable {s : State} {job : AckJob}

theorem State.acknowledge_unconfigured (h : s.mport.settings.announceType = 0#16 ∨ s.mport.settings.partAddress = 0#48) :
    s.acknowledge job = s.dropAnswer .sleepAck .unconfigured := if_pos h

section
variable (htype : s.mport.settings.announceType ≠ 0#16) (hpart : s.mport.settings.partAddress ≠ 0#48)
include htype hpart

theorem State.acknowledge_dropped {why : DropCause}
    (hclaim : s.claimAnswer (sleepAckFrame job s.mport.settings.partAddress s.mport.settings.announceType) job.port job.segment = .error why) :
    s.acknowledge job = s.dropAnswer .sleepAck why := by
  simp only [State.acknowledge, htype, hpart, or_self, if_false, hclaim]

theorem State.acknowledge_sent {b : Fin 8} (hb : s.resp.buffers[b.val] = none) (hlow : ∀ k < b, s.resp.buffers[k.val] ≠ none)
    (hroom : s.emit.size < 16) : s.acknowledge job = { s with
      emit := { s.emit with waiting := s.emit.waiting ++ [{ kind := .answer b, port := job.port, segment := job.segment }] }
      resp := { s.resp with
        buffers := tset s.resp.buffers b (some (sleepAckFrame job s.mport.settings.partAddress s.mport.settings.announceType)) } } := by
  simp only [State.acknowledge, htype, hpart, or_self, if_false, State.claimAnswer_eq_ok hb hlow hroom]

end

/-- Every cause for which a SLEEP_ACK is dropped. -/
theorem State.acknowledge_drops {why : DropCause}
    (h : (s.mport.settings.announceType = 0#16 ∨ s.mport.settings.partAddress = 0#48) ∧ why = .unconfigured ∨
      s.mport.settings.announceType ≠ 0#16 ∧ s.mport.settings.partAddress ≠ 0#48 ∧
        (∀ b : Fin 8, s.resp.buffers[b.val] ≠ none) ∧ why = .noBuffer ∨
      s.mport.settings.announceType ≠ 0#16 ∧ s.mport.settings.partAddress ≠ 0#48 ∧ (∃ b : Fin 8, s.resp.buffers[b.val] = none) ∧
        16 ≤ s.emit.size ∧ why = .noPlace) : s.acknowledge job = s.dropAnswer .sleepAck why := by
  rcases h with ⟨h, rfl⟩ | ⟨htype, hpart, hfull, rfl⟩ | ⟨htype, hpart, ⟨b, hb⟩, hfull, rfl⟩
  · exact State.acknowledge_unconfigured h
  · exact State.acknowledge_dropped htype hpart (State.claimAnswer_noBuffer hfull)
  · exact State.acknowledge_dropped htype hpart (State.claimAnswer_noPlace hb (Nat.not_lt_of_le hfull))

theorem State.acknowledge_jobs (s : State) (job : AckJob) :
    (s.acknowledge job).resp.answerJobs = s.resp.answerJobs ∧ (s.acknowledge job).resp.ackJobs = s.resp.ackJobs := by
  simp only [State.acknowledge]
  split
  · exact ⟨rfl, rfl⟩
  · split
    · exact ⟨rfl, rfl⟩
    · next t h =>
      obtain ⟨b, -, -, rfl⟩ := State.claimAnswer_ok h
      exact ⟨rfl, rfl⟩

end

/-- Settles O43: the job is off its list, and then void, dropped or sent. -/
theorem answerJobsResult : Obligations.AnswerJobsResult := by
  unfold Obligations.AnswerJobsResult
  refine ⟨fun s c job rest hjobs hc => ?answer, fun s job rest hjobs => ?ack⟩
  case answer =>
    have hkept := State.answer_jobs { s with resp := { s.resp with answerJobs := rest } } job
    refine ⟨_, exec_answerJob hjobs hc, hkept.1, hkept.2, fun hvoid => ?_, fun st code hst haddress hcode =>
      ⟨fun hfull => ?_, fun b hb hfull => ?_, fun b hb hlow hroom => ?_⟩⟩
    · rw [State.answer_void (s := { s with resp := { s.resp with answerJobs := rest } }) hvoid]
      exact ⟨rfl, rfl⟩
    all_goals have hcode := StationState.answerCode_eq_some hcode
    · rw [State.answer_dropped (s := { s with resp := { s.resp with answerJobs := rest } }) hst haddress hcode (State.claimAnswer_noBuffer hfull)]
      exact ⟨rfl, rfl, rfl⟩
    · rw [State.answer_dropped (s := { s with resp := { s.resp with answerJobs := rest } }) hst haddress hcode
        (State.claimAnswer_noPlace hb (Nat.not_lt_of_le hfull))]
      exact ⟨rfl, rfl, rfl⟩
    · rw [State.answer_sent (s := { s with resp := { s.resp with answerJobs := rest } }) hst haddress hcode hb hlow hroom]
      exact ⟨rfl, rfl, State.onlyStation_of_setStation rfl, rfl⟩
  case ack =>
    have hrow : exec .sleepAckJob s = settle (State.acknowledge { s with resp := { s.resp with ackJobs := rest } } job) := by
      show execSleepAckJob s = _
      simp only [execSleepAckJob, hjobs]
    have hkept := State.acknowledge_jobs { s with resp := { s.resp with ackJobs := rest } } job
    refine ⟨_, hrow, hkept.2, hkept.1, fun why hdrop => ?_, fun b htype hpart hb hlow hroom => ?_⟩
    · rw [State.acknowledge_drops (s := { s with resp := { s.resp with ackJobs := rest } }) hdrop]
      exact ⟨rfl, rfl, rfl⟩
    · rw [State.acknowledge_sent (s := { s with resp := { s.resp with ackJobs := rest } }) htype hpart hb hlow hroom]
      exact ⟨rfl, rfl, rfl⟩

/-! ### The emission port (R134 to R136, R207) -/

theorem Transfer.wire_fields (w : Transfer) :
    fieldAt w.wire 0 1 = w.port.toNat ∧ fieldAt w.wire 1 2 = w.segment.toNat ∧ w.wire.drop 3 = w.bytes := by
  refine ⟨?_, ?_, rfl⟩
  · exact fieldAt_single (Nat.lt_trans w.port.isLt (by decide))
  · exact fieldAt_beBytes_append (len := 2) (Nat.lt_trans w.segment.isLt (by decide)) w.bytes

/-- The bytes a head entry begins with, by the resource it names. -/
theorem State.entryBytes_eq_some {s : State} {k : EntryKind} {bytes : List Byte}
    (h : (∃ b, k = .answer b ∧ s.resp.buffers[b.val] = some bytes) ∨
    (∃ i st, k = .wake i st.address ∧ s.station i = some st ∧ st.template = some bytes) ∨
    (∃ b, k = .held b ∧ s.hold[b.val] = .queued bytes) ∨
    (∃ j f, k = .pass j ∧ s.icls.slots[j.val] = .passing f ∧ f.bytes = bytes)) : s.entryBytes k = some bytes := by
  rcases h with ⟨b, rfl, hb⟩ | ⟨i, st, rfl, hst, ht⟩ | ⟨b, rfl, hb⟩ | ⟨j, f, rfl, hj, rfl⟩
  · exact hb
  · simp only [State.entryBytes, State.matched_eq_some hst rfl, Option.bind_some, ht]
  · simp only [State.entryBytes, hb]
  · simp only [State.entryBytes, hj, IntakeSlot.frame, Option.map_some]

theorem State.entryBytes_wake_none {s : State} {i : Slot} {a : Address}
    (h : ∀ st, s.station i = some st → st.address = a → st.template = none) : s.entryBytes (.wake i a) = none := by
  show (s.matched i a).bind (·.template) = none
  cases hm : s.matched i a with
  | none => rfl
  | some st =>
    obtain ⟨hst, ha⟩ := State.matched_some hm
    exact h st hst ha

/-- The emission queue after its head entry has begun, or left unsent. -/
def Emit.begun (e : Emit) (x : Entry) (rest : List Entry) (bytes : Option (List Byte)) : Emit :=
  { e with sending := bytes.map fun l => (x, { port := x.port, segment := x.segment, bytes := l }), waiting := rest }

theorem exec_transmissionBegin {s : State} {x : Entry} {rest : List Entry} (hidle : s.emit.sending = none) (hhead : s.emit.waiting = x :: rest) :
    exec .transmissionBegin s = settle { s with emit := s.emit.begun x rest (s.entryBytes x.kind) } := by
  show execTransmissionBegin s = _
  simp only [execTransmissionBegin, hidle, hhead]
  cases s.entryBytes x.kind <;> rfl

theorem exec_transmissionCompletion {s : State} {x : Entry} {w : Transfer} (h : s.emit.sending = some (x, w)) :
    exec .transmissionCompletion s =
      settle ((State.endTransfer { s with emit := { s.emit with sending := none } } w .complete).freeResource x.kind) := by
  show execTransmissionCompletion s = _
  simp only [execTransmissionCompletion, h]

section
variable (s : State) (k : EntryKind)

/-- Freeing the resource of an entry touches the answer buffers, the hold buffers and the intake slots alone. -/
theorem State.freeResource_changes : ∃ buffers hold slots, s.freeResource k =
    { s with resp := { s.resp with buffers := buffers }, hold := hold, icls := { s.icls with slots := slots } } := by
  cases k <;> exact ⟨_, _, _, rfl⟩

theorem State.freeResource_buffers (b : Fin 8) :
    (s.freeResource k).resp.buffers[b.val] = if k = .answer b then none else s.resp.buffers[b.val] := by
  cases k with
  | answer b' => simpa [State.freeResource] using tset_get _ _ _ _
  | _ => simp [State.freeResource]

theorem State.freeResource_hold (b : Fin 16) : (s.freeResource k).hold[b.val] = if k = .held b then .free else s.hold[b.val] := by
  cases k with
  | held b' => simpa [State.freeResource] using tset_get _ _ _ _
  | _ => simp [State.freeResource]

theorem State.freeResource_slots (j : Fin 4) : (s.freeResource k).icls.slots[j.val] = if k = .pass j then .free else s.icls.slots[j.val] := by
  cases k with
  | pass j' => simpa [State.freeResource] using tset_get _ _ _ _
  | _ => simp [State.freeResource]

end

/-- Settles O44: the wire format, the begin by what the entry's resource holds, and the completion by what is freed. -/
theorem transmissionResult : Obligations.TransmissionResult := by
  unfold Obligations.TransmissionResult
  refine ⟨Transfer.wire_fields, fun s x rest hidle hhead => ?begins, fun s x w hsending => ?completes⟩
  case begins =>
    refine ⟨_, exec_transmissionBegin hidle hhead, rfl, fun bytes hbytes => ?_, fun i a hkind hgone => ?_⟩
    · rw [State.entryBytes_eq_some hbytes]
      rfl
    · rw [hkind, State.entryBytes_wake_none hgone]
      rfl
  case completes =>
    refine ⟨_, exec_transmissionCompletion hsending, ?_, ?_, State.freeResource_buffers _ _, State.freeResource_hold _ _,
      State.freeResource_slots _ _, ?_⟩
    · simp only [State.drivePins_emit, State.freeResource_frame]
      rfl
    · simp only [State.drivePins_out, State.freeResource_frame]
      rfl
    · obtain ⟨buffers, hold, slots, hfreed⟩ :=
        (State.endTransfer { s with emit := { s.emit with sending := none } } w .complete).freeResource_changes x.kind
      rw [hfreed]
      rfl

/-! ### The sending of requests (R150) -/

theorem exec_steerSend {s : State} {r : SteerRequest} {rest : List SteerRequest} (hqueue : s.steer.queue = r :: rest)
    (hmode : s.steer.mode = .running) (hlink : s.steer.link = .up) (hidle : s.steer.inFlight = none) :
    exec .steerSend s = settle (State.sendNew { s with steer := { s.steer with queue := rest } } (.station r)) := by
  show execSteerSend s = _
  simp only [execSteerSend, hqueue, hmode, hlink, hidle, and_self, if_true]

theorem exec_steerSend_idle {s : State} (h : s.steer.queue = [] ∨ s.steer.mode ≠ .running ∨ s.steer.link ≠ .up ∨ s.steer.inFlight ≠ none) :
    exec .steerSend s = settle s := by
  show execSteerSend s = _
  unfold execSteerSend
  split
  · rfl
  · next r rest hqueue =>
    refine if_neg fun hready => ?_
    obtain ⟨hmode, hlink, hidle⟩ := hready
    rcases h with h | h | h | h
    · rw [h] at hqueue; cases hqueue
    · exact h hmode
    · exact h hlink
    · exact h hidle

/-- Settles O45: a request is sent under the conditions of the row, and otherwise nothing changes. -/
theorem steerSendResult : Obligations.SteerSendResult := by
  unfold Obligations.SteerSendResult
  exact ⟨fun s r rest hqueue hmode hlink hidle => ⟨_, exec_steerSend hqueue hmode hlink hidle, rfl, rfl, rfl⟩, fun _ _ => rfl,
    fun s h => ⟨_, exec_steerSend_idle h, rfl⟩⟩

end Sys2Proof.Machine
end

section
/-! PROOF. The outcomes of requests: a DIVERT's (O46), a RESTORE's (O47), a CLEAR_ALL's and what is discarded (O48). -/

namespace Sys2Proof.Machine

/-! ### Taking an answer (R151, R208) -/

section
variable {s : State} {f : InFlight} {r : SteerRequest} {run : List Byte} {q : Byte}

theorem Steer.matching_eq_some_iff (t : Steer) (q : Byte) (f : InFlight) :
    t.matching q = some f ↔ t.mode ≠ .stopped ∧ t.inFlight = some f ∧ f.sequence.setWidth 8 = q := by
  unfold Steer.matching
  by_cases hmode : t.mode = .stopped
  · simp [hmode]
  · cases hf : t.inFlight with
    | none => simp [hmode]
    | some x =>
      by_cases hq : x.sequence.setWidth 8 = q
      · simp only [hmode, if_false, hq, if_true, Option.some.injEq]
        exact ⟨fun h => ⟨hmode, h, h ▸ hq⟩, fun h => h.2.1⟩
      · simp only [hmode, if_false, hq, Option.some.injEq]
        exact ⟨nofun, fun h => absurd (h.2.1 ▸ h.2.2) hq⟩

theorem State.AnswersRequest.matching (h : s.AnswersRequest f q) : s.steer.matching q = some f :=
  (Steer.matching_eq_some_iff _ _ _).mpr h.2

theorem State.takeAnswer_station (h : s.AnswersRequest f q) (hbody : f.body = .station r) (v : Verdict) :
    s.takeAnswer q v = s.stationOutcome r v := by
  simp only [State.takeAnswer, h.matching, hbody]

theorem State.takeAnswer_clearAll (h : s.AnswersRequest f q) (hbody : f.body = .clearAll) (v : Verdict) :
    s.takeAnswer q v = s.clearAllOutcome := by
  simp only [State.takeAnswer, h.matching, hbody]

theorem State.takeAnswer_discarded (h : s.steer.matching q = none) (v : Verdict) : s.takeAnswer q v = s := by
  simp only [State.takeAnswer, h]

/-- The row carries this verdict on the request with this sequence. -/
def Answers (c : Instr) (run : List Byte) (q : Byte) (v : Verdict) : Prop :=
  c = .ack run ∧ decodeAnswer run = some (.ack q) ∧ v = .ack ∨ ∃ why, c = .nak run ∧ decodeAnswer run = some (.nak q why) ∧ v = .nak why

theorem exec_answer {c : Instr} {v : Verdict} (hfooting : s.steer.footing = true) (hc : Answers c run q v) :
    exec c s = settle (s.takeAnswer q v).afterRun := by
  rcases hc with ⟨rfl, hdecode, rfl⟩ | ⟨why, rfl, hdecode, rfl⟩
  · show execAck run s = _
    simp only [execAck, hfooting, hdecode]
  · show execNak run s = _
    simp only [execNak, hfooting, hdecode]

/-- A receiver that had its footing keeps it, so a run of bytes only ends the part's own message. -/
theorem State.afterRun_eq (h : s.steer.footing = true) : s.afterRun = { s with out := s.out.endMessage .whole } := by
  have hsteer : { s.steer with footing := true } = s.steer := by rw [← h]
  show ({ s with steer := { s.steer with footing := true }, out := s.out.endMessage .whole } : State) = _
  rw [hsteer]

end

/-! ### A DIVERT's outcome at the record (R34, R35) -/

section
variable {s : State} {i : Slot} {st : Station}

/-- A notice about a record whose slot's station was set before. -/
theorem State.postFor_over {t : State} {x : Station} (h : t.stab = (s.setStation i x).stab) (k : NoticeKind) (d : Detail) :
    t.postFor i k d = { t with nq := t.nq.post { kind := k, subject := some (i, s.generation i), detail := d } } := by
  rw [State.postFor, State.generation_of_stab h, State.setStation_generation]

theorem State.divertAck_announced (h : s.station i = some st) {q requested : Half} (hq : st.state = .entering (.announced q requested)) :
    s.divertAck i = ({ s with
      stab := (s.setStation i { st with
        state := .asleep (startLease (effectiveLease requested st.defaultLease))
        lastAck := some (.accepted, effectiveLease requested st.defaultLease) }).stab
      nq := s.nq.post { kind := .stationAsleep, subject := some (i, s.generation i),
                        detail := .lease (effectiveLease requested st.defaultLease) } } : State).withAcks
        [ackJobFor i st .accepted q (effectiveLease requested st.defaultLease)] := by
  simp only [State.divertAck, h, hq, SleepOrigin.requested]
  rw [State.setStationState_eq h, State.decideAck_over (s := s)
    (x := { st with state := .asleep (startLease (effectiveLease requested st.defaultLease)) }) rfl]
  exact State.postFor_over (s := s) (x := { st with
    state := .asleep (startLease (effectiveLease requested st.defaultLease))
    lastAck := some (.accepted, effectiveLease requested st.defaultLease) }) (by rfl) _ _

theorem State.divertAck_commanded (h : s.station i = some st) {requested : Half} (hq : st.state = .entering (.commanded requested)) :
    s.divertAck i = { s with
      stab := (s.setStation i { st with state := .asleep (startLease (effectiveLease requested st.defaultLease)) }).stab
      nq := s.nq.post { kind := .stationAsleep, subject := some (i, s.generation i),
                        detail := .lease (effectiveLease requested st.defaultLease) } } := by
  simp only [State.divertAck, h, hq, SleepOrigin.requested]
  rw [State.setStationState_eq h, State.postFor_over (s := s)
    (x := { st with state := .asleep (startLease (effectiveLease requested st.defaultLease)) }) rfl]
  rfl

theorem State.divertAck_other (h : s.station i = some st) (hq : ∀ o, st.state ≠ .entering o) : s.divertAck i = s := by
  simp only [State.divertAck, h]
  cases hs : st.state with
  | entering o => exact absurd hs (hq o)
  | _ => rfl

/-- The notice of a refused DIVERT. -/
def State.divertRefused (s : State) (i : Slot) (why : NakReason) : Nq :=
  s.nq.post { kind := .steerRefused, subject := some (i, s.generation i), detail := .refusal .divert why }

theorem State.divertNak_announced (h : s.station i = some st) {q lease : Half} (hq : st.state = .entering (.announced q lease)) (why : NakReason) :
    s.divertNak i why = ({ s with
      stab := (s.setStation i { st with state := .awake, lastAck := some (.steerRefused, 0#16) }).stab
      nq := s.divertRefused i why } : State).withAcks [ackJobFor i st .steerRefused q 0#16] := by
  simp only [State.divertNak, h, hq]
  rw [State.setStationState_eq h, State.decideAck_over (s := s) (x := { st with state := .awake }) rfl]
  exact State.postFor_over (s := s) (x := { st with state := .awake, lastAck := some (.steerRefused, 0#16) }) (by rfl) _ _

theorem State.divertNak_returns (h : s.station i = some st)
    (hq : (∃ lease, st.state = .entering (.commanded lease)) ∨ ∃ reason cause, st.state = .leaving reason cause) (why : NakReason) :
    s.divertNak i why = { s with stab := (s.setStation i { st with state := .awake }).stab, nq := s.divertRefused i why } := by
  have hpost : s.divertNak i why = (s.setStationState i .awake).postFor i .steerRefused (.refusal .divert why) := by
    rcases hq with ⟨lease, hq⟩ | ⟨reason, cause, hq⟩ <;> simp only [State.divertNak, h, hq]
  rw [hpost, State.setStationState_eq h, State.postFor_over (s := s) (x := { st with state := .awake }) rfl]
  rfl

theorem State.divertNak_other (h : s.station i = some st) (hentering : ∀ o, st.state ≠ .entering o)
    (hleaving : ∀ reason cause, st.state ≠ .leaving reason cause) (why : NakReason) : s.divertNak i why = s := by
  simp only [State.divertNak, h]
  cases hs : st.state with
  | entering o => exact absurd hs (hentering o)
  | leaving reason cause => exact absurd hs (hleaving reason cause)
  | _ => rfl

/-- A DIVERT's outcome touches the record, its acknowledgement and the notices alone. -/
theorem State.divertAck_changes (h : s.station i = some st) :
    ∃ stab resp nq, s.divertAck i = { s with stab := stab, resp := resp, nq := nq } := by
  by_cases hq : ∃ o, st.state = .entering o
  · obtain ⟨o, hq⟩ := hq
    cases o with
    | announced q requested => exact ⟨_, _, _, State.divertAck_announced h hq⟩
    | commanded requested => exact ⟨_, _, _, State.divertAck_commanded h hq⟩
  · exact ⟨_, _, _, State.divertAck_other h fun o ho => hq ⟨o, ho⟩⟩

theorem State.divertNak_changes (h : s.station i = some st) (why : NakReason) :
    ∃ stab resp nq, s.divertNak i why = { s with stab := stab, resp := resp, nq := nq } := by
  cases hq : st.state with
  | entering o =>
    cases o with
    | announced q requested => exact ⟨_, _, _, State.divertNak_announced h hq why⟩
    | commanded requested => exact ⟨_, _, _, State.divertNak_returns h (Or.inl ⟨_, hq⟩) why⟩
  | leaving reason cause => exact ⟨_, _, _, State.divertNak_returns h (Or.inr ⟨_, _, hq⟩) why⟩
  | _ => exact ⟨_, _, _, State.divertNak_other h (by simp [hq]) (by simp [hq]) why⟩

end

/-- STEER once the request in flight has its outcome. -/
def State.resolved (s : State) (queue : List SteerRequest) : State :=
  { s with steer := { s.steer with inFlight := none, ackTimer := none, queue := queue } }

section
variable {s : State} {f : InFlight} {r : SteerRequest} {run : List Byte} {q : Byte} {st : Station}

theorem exec_ack_divert (h : s.AnswersRequest f q) (hbody : f.body = .station r) (hkind : r.kind = .divert)
    (hdecode : decodeAnswer run = some (.ack q)) (hst : s.station r.slot = some st) :
    exec (.ack run) s = settle { (s.resolved s.steer.queue).divertAck r.slot with out := s.out.endMessage .whole } := by
  have houtcome : s.takeAnswer q .ack = (s.resolved s.steer.queue).divertAck r.slot := by
    rw [State.takeAnswer_station h hbody]
    simp only [State.stationOutcome, Steer.resolve, hkind]
    rfl
  obtain ⟨stab, resp, nq, hchanges⟩ := State.divertAck_changes (s := s.resolved s.steer.queue) hst
  rw [exec_answer h.1 (Or.inl ⟨rfl, hdecode, rfl⟩), houtcome, hchanges, State.afterRun_eq (by exact h.1)]
  rfl

theorem exec_nak_divert (h : s.AnswersRequest f q) (hbody : f.body = .station r) (hkind : r.kind = .divert) {why : NakReason}
    (hdecode : decodeAnswer run = some (.nak q why)) (hst : s.station r.slot = some st) :
    exec (.nak run) s = settle { (s.resolved (s.steer.queue.eraseP fun x => x.isFor .restore r.slot)).divertNak r.slot why with
      out := s.out.endMessage .whole } := by
  have houtcome : s.takeAnswer q (.nak why) = (s.resolved (s.steer.queue.eraseP fun x => x.isFor .restore r.slot)).divertNak r.slot why := by
    rw [State.takeAnswer_station h hbody]
    simp only [State.stationOutcome, Steer.resolve, hkind]
    rfl
  obtain ⟨stab, resp, nq, hchanges⟩ :=
    State.divertNak_changes (s := s.resolved (s.steer.queue.eraseP fun x => x.isFor .restore r.slot)) hst why
  rw [exec_answer h.1 (Or.inr ⟨why, rfl, hdecode, rfl⟩), houtcome, hchanges, State.afterRun_eq (by exact h.1)]
  rfl

end

/-- Settles O46: STEER's part is `resolved`, the record's part an equation for each state. -/
theorem divertOutcome : Obligations.DivertOutcome := by
  unfold Obligations.DivertOutcome
  refine ⟨fun s f r run q st h hbody hkind hdecode hst => ?ack, fun s f r run q why st h hbody hkind hdecode hst => ?nak⟩
  case ack =>
    have hst' : (s.resolved s.steer.queue).station r.slot = some st := hst
    obtain ⟨stab, resp, nq, hchanges⟩ := State.divertAck_changes hst'
    refine ⟨_, exec_ack_divert h hbody hkind hdecode hst, ?_, rfl, ?_, fun origin requested hq horigin => ?_, fun hq => ?_⟩
    · rw [hchanges]; rfl
    · rw [hchanges]; rfl
    · intro effective lease
      rcases horigin with ⟨q', rfl⟩ | rfl
      · rw [State.divertAck_announced hst' hq]
        refine ⟨rfl, fun q'' hsame => ?_, nofun⟩
        cases hsame
        exact ⟨State.onlyStation_of_setStation rfl, rfl⟩
      · rw [State.divertAck_commanded hst' hq]
        exact ⟨rfl, nofun, fun _ => ⟨State.onlyStation_of_setStation rfl, (State.handsAcks_nil _ _).mpr rfl⟩⟩
    · obtain ⟨reason, cause, hq⟩ := hq
      rw [State.divertAck_other hst' (by simp [hq])]
      exact ⟨rfl, rfl, rfl⟩
  case nak =>
    have hst' : (s.resolved (s.steer.queue.eraseP fun x => x.isFor .restore r.slot)).station r.slot = some st := hst
    obtain ⟨stab, resp, nq, hchanges⟩ := State.divertNak_changes hst' why
    refine ⟨_, exec_nak_divert h hbody hkind hdecode hst, ?_, rfl, ?_, fun hq => ?_, fun q' lease hq => ?_, fun hq => ?_⟩
    · rw [hchanges]; rfl
    · rw [hchanges]; rfl
    · rcases hq with ⟨o, hq⟩ | hq
      · cases o with
        | announced q' requested => rw [State.divertNak_announced hst' hq]; rfl
        | commanded requested => rw [State.divertNak_returns hst' (Or.inl ⟨_, hq⟩)]; rfl
      · rw [State.divertNak_returns hst' (Or.inr hq)]; rfl
    · rw [State.divertNak_announced hst' hq]
      exact ⟨State.onlyStation_of_setStation rfl, rfl⟩
    · rw [State.divertNak_returns hst' hq]
      exact ⟨State.onlyStation_of_setStation rfl, (State.handsAcks_nil _ _).mpr rfl⟩

end Sys2Proof.Machine
end

section
/-! PROOF. A RESTORE's outcome (O47), a CLEAR_ALL's and what the link discards (O48), and a post (O49). -/

namespace Sys2Proof.Machine

/-! ### A RESTORE's outcome at the record (R36, R23) -/

section
variable {s : State} {i : Slot} {st : Station}

/-- A notice of a record with no detail. -/
def State.recordPost (s : State) (i : Slot) (kind : NoticeKind) : Post := { kind := kind, subject := some (i, s.generation i), detail := .none }

theorem State.restoreOutcome_confirmed (h : s.station i = some st) (hq : ∃ cause, st.state = .leaving .confirmed cause) : s.restoreOutcome i =
    { s.setStation i { st with state := .awake } with nq := s.nq.post (s.recordPost i .stationReturned) } := by
  obtain ⟨cause, hq⟩ := hq
  simp only [State.restoreOutcome, h, hq]
  exact State.returned_eq h

theorem State.restoreOutcome_exhausted (h : s.station i = some st) (hq : ∃ cause, st.state = .leaving .exhausted cause) :
    s.restoreOutcome i = s.setStation i { st with state := .lapsed } := by
  obtain ⟨cause, hq⟩ := hq
  simp only [State.restoreOutcome, h, hq]
  exact State.setStationState_eq h

theorem State.restoreOutcome_retiring (h : s.station i = some st) (hq : st.state = .retiring) : s.restoreOutcome i = s.vacate i st := by
  simp only [State.restoreOutcome, h, hq]

end

/-- The notices after a RESTORE's outcome: a NAK adds STEER_REFUSED with the generation before it. -/
def State.restoreRefused (s : State) (i : Slot) (v : Verdict) (n : Nq) : Nq :=
  match v with
  | .ack => n
  | .nak why => n.post { kind := .steerRefused, subject := some (i, s.generation i), detail := .refusal .restore why }

section
variable {s : State} {f : InFlight} {r : SteerRequest} {c : Instr} {run : List Byte} {q : Byte} {v : Verdict}

theorem exec_answer_restore (h : s.AnswersRequest f q) (hbody : f.body = .station r) (hkind : r.kind = .restore) (hc : Answers c run q v) :
    exec c s = settle { (s.resolved s.steer.queue).restoreOutcome r.slot with
      nq := s.restoreRefused r.slot v ((s.resolved s.steer.queue).restoreOutcome r.slot).nq, out := s.out.endMessage .whole } := by
  have houtcome : s.takeAnswer q v = { (s.resolved s.steer.queue).restoreOutcome r.slot with
      nq := s.restoreRefused r.slot v ((s.resolved s.steer.queue).restoreOutcome r.slot).nq } := by
    rw [State.takeAnswer_station h hbody]
    cases v <;>
    · simp only [State.stationOutcome, Steer.resolve, hkind]
      rfl
  have hfooting : ((s.resolved s.steer.queue).restoreOutcome r.slot).steer.footing = true := by
    simp only [State.restoreOutcome_frame]
    exact h.1
  have hout : ((s.resolved s.steer.queue).restoreOutcome r.slot).out = s.out := by
    simp only [State.restoreOutcome_frame]
    rfl
  rw [exec_answer h.1 hc, houtcome, State.afterRun_eq (by exact hfooting)]
  simp only [hout]

end

/-- Settles O47: STEER's part is `resolved`, the record's an equation for each state, and a NAK adds its notice. -/
theorem restoreOutcome : Obligations.RestoreOutcome := by
  unfold Obligations.RestoreOutcome
  intro s f r c run q v st h hbody hkind hc hst refused
  have hrefused : ∀ n, s.restoreRefused r.slot v n = refused n := fun n => by cases v <;> rfl
  have hst' : (s.resolved s.steer.queue).station r.slot = some st := hst
  refine ⟨_, exec_answer_restore h hbody hkind hc, ?steer, rfl, fun hq => ?confirmed, fun hq => ?exhausted, fun hq => ?retiring⟩
  case steer =>
    show ((s.resolved s.steer.queue).restoreOutcome r.slot).steer = _
    simp only [State.restoreOutcome_frame]
    rfl
  case confirmed =>
    rw [State.restoreOutcome_confirmed hst' hq]
    exact ⟨State.onlyStation_of_setStation rfl, hrefused _, rfl⟩
  case exhausted =>
    rw [State.restoreOutcome_exhausted hst' hq]
    exact ⟨State.onlyStation_of_setStation rfl, hrefused _, rfl⟩
  case retiring =>
    rw [State.restoreOutcome_retiring hst' hq]
    obtain ⟨hstation, hgeneration⟩ := State.vacate_slots (s := s.resolved s.steer.queue) (i := r.slot) (st := st) rfl
    refine ⟨hstation, fun j => ?_, removeMapped_eq _ _ _, fun hnodup n => ?_, hrefused _, rfl⟩
    · refine (hgeneration j).trans ?_
      split
      · next hj => rw [hj]; rfl
      · rfl
    · exact lowerCounts_get st.rules s.rstore hnodup n

/-! ### A CLEAR_ALL's outcome, and what is discarded (R158, R161, R208) -/

section
variable {s : State}

theorem State.clearAllOutcome_starting (hmode : s.steer.mode = .starting) : s.clearAllOutcome =
    { s with steer := { s.steer with mode := .running, inFlight := none, ackTimer := none }
             nq := s.nq.post { kind := .modeChanged, subject := none, detail := .mode .running } } := by
  simp only [State.clearAllOutcome, hmode]
  rfl

theorem State.clearAllOutcome_stopping (hmode : s.steer.mode = .stopping) : s.clearAllOutcome =
    { s with steer := { s.steer with
               mode := .stopped, link := .idle, inFlight := none, ackTimer := none, deferredStart := s.mport.run }
             nq := s.nq.post { kind := .modeChanged, subject := none, detail := .mode .stopped } } := by
  simp only [State.clearAllOutcome, hmode]
  rfl

/-- A CLEAR_ALL's outcome touches the mode, the link and the notices, and not the receiver. -/
theorem State.clearAllOutcome_changes (s : State) : ∃ steer nq, s.clearAllOutcome = { s with steer := steer, nq := nq } ∧
    steer.footing = s.steer.footing := by
  cases hmode : s.steer.mode with
  | starting => exact ⟨_, _, State.clearAllOutcome_starting hmode, rfl⟩
  | stopping => exact ⟨_, _, State.clearAllOutcome_stopping hmode, rfl⟩
  | stopped => exact ⟨{ s.steer with inFlight := none, ackTimer := none }, s.nq, by simp only [State.clearAllOutcome, hmode], rfl⟩
  | running => exact ⟨{ s.steer with inFlight := none, ackTimer := none }, s.nq, by simp only [State.clearAllOutcome, hmode], rfl⟩

theorem exec_answer_clearAll {f : InFlight} {c : Instr} {run : List Byte} {q : Byte} {v : Verdict} (h : s.AnswersRequest f q)
    (hbody : f.body = .clearAll) (hc : Answers c run q v) :
    exec c s = settle { s.clearAllOutcome with out := s.out.endMessage .whole } := by
  obtain ⟨steer, nq, hchanges, hfooting⟩ := s.clearAllOutcome_changes
  rw [exec_answer h.1 hc, State.takeAnswer_clearAll h hbody, hchanges, State.afterRun_eq (hfooting.trans h.1)]

/-- A run of bytes that is not taken as an outcome ends the part's own message and gives the receiver its footing. -/
theorem exec_run_discarded {c : Instr} {run : List Byte} (hc : c = .ack run ∨ c = .nak run)
    (h : s.steer.footing = false ∨ decodeAnswer run = none ∨
      ∀ f q, s.AnswersRequest f q → decodeAnswer run ≠ some (.ack q) ∧ ∀ why, decodeAnswer run ≠ some (.nak q why)) :
    exec c s = settle s.afterRun := by
  have hnone : ∀ q v, Answers c run q v → s.steer.footing = true → s.takeAnswer q v = s := fun q v hans hfooting => by
    refine State.takeAnswer_discarded ?_ v
    rw [Option.eq_none_iff_forall_ne_some]
    intro f hf
    have hrequest : s.AnswersRequest f q := ⟨hfooting, (Steer.matching_eq_some_iff _ _ _).mp hf⟩
    rcases h with h | h | h
    · rw [hfooting] at h; cases h
    · rcases hans with ⟨-, hdecode, -⟩ | ⟨why, -, hdecode, -⟩ <;> (rw [h] at hdecode; cases hdecode)
    · rcases hans with ⟨-, hdecode, -⟩ | ⟨why, -, hdecode, -⟩
      · exact (h f q hrequest).1 hdecode
      · exact (h f q hrequest).2 why hdecode
  rcases hc with rfl | rfl
  · show execAck run s = _
    unfold execAck
    split
    · next q hfooting hdecode => rw [hnone q .ack (Or.inl ⟨rfl, hdecode, rfl⟩) hfooting]
    · rfl
  · show execNak run s = _
    unfold execNak
    split
    · next q why hfooting hdecode => rw [hnone q (.nak why) (Or.inr ⟨why, rfl, hdecode, rfl⟩) hfooting]
    · rfl

end

/-- Settles O48: the outcome by the mode, and the rows that only give the receiver its footing. -/
theorem clearAllAndDiscarded : Obligations.ClearAllAndDiscarded := by
  unfold Obligations.ClearAllAndDiscarded
  refine ⟨fun s f c run q h hbody hc => ?outcome, fun s c run hc => ?discarded, fun _ _ => rfl⟩
  case outcome =>
    have hanswers : ∃ v, Answers c run q v := by
      rcases hc with ⟨hrow, hdecode⟩ | ⟨why, hrow, hdecode⟩
      · exact ⟨.ack, Or.inl ⟨hrow, hdecode, rfl⟩⟩
      · exact ⟨.nak why, Or.inr ⟨why, hrow, hdecode, rfl⟩⟩
    obtain ⟨v, hanswers⟩ := hanswers
    obtain ⟨steer, nq, hchanges, -⟩ := s.clearAllOutcome_changes
    refine ⟨_, exec_answer_clearAll h hbody hanswers, rfl, ?_, fun hmode => ?_, fun hmode => ?_⟩
    · rw [hchanges]; rfl
    · rw [State.clearAllOutcome_starting hmode]
      exact ⟨rfl, rfl⟩
    · rw [State.clearAllOutcome_stopping hmode]
      exact ⟨rfl, rfl⟩
  case discarded =>
    rcases hc with rfl | rfl | ⟨hc, h⟩
    · exact ⟨_, rfl, rfl, rfl, rfl⟩
    · exact ⟨_, rfl, rfl, rfl, rfl⟩
    · have hidle : c ≠ .lineIdle := by rcases hc with rfl | rfl <;> exact nofun
      rw [if_neg hidle]
      exact ⟨_, exec_run_discarded hc h, rfl, rfl, rfl⟩

/-! ### A post (R188 to R191) -/

theorem leastUrgent_eq_some {queue : List Notice} {n : Notice} (hn : n ∈ queue)
    (hrank : ∀ m ∈ queue, n.noticeClass.rank ≤ m.noticeClass.rank) : leastUrgent queue = some n.noticeClass := by
  have hpresent : queue.any (fun m => m.noticeClass = n.noticeClass) = true := List.any_eq_true.mpr ⟨n, hn, by simp⟩
  have habsent : ∀ c : NoticeClass, c.rank < n.noticeClass.rank → queue.any (fun m => m.noticeClass = c) = false := by
    intro c hc
    refine List.any_eq_false.mpr fun m hm => ?_
    rw [decide_eq_true_eq]
    intro he
    have := hrank m hm
    rw [he] at this
    omega
  unfold leastUrgent
  cases hclass : n.noticeClass with
  | info => rw [hclass] at hpresent; simp [hpresent]
  | routine =>
    rw [hclass] at hpresent habsent
    simp [hpresent, habsent .info (by decide)]
  | urgent =>
    rw [hclass] at hpresent habsent
    simp [hpresent, habsent .info (by decide), habsent .routine (by decide)]

theorem evictNewest_eq {before after : List Notice} {n : Notice} (h : ∀ m ∈ after, m.noticeClass ≠ n.noticeClass) :
    evictNewest n.noticeClass (before ++ n :: after) = before ++ after := by
  have hnot : ∀ m ∈ after.reverse, ¬ (decide (m.noticeClass = n.noticeClass)) = true := fun m hm => by
    simpa using h m (List.mem_reverse.mp hm)
  rw [evictNewest, List.reverse_append, List.reverse_cons, List.append_assoc, List.eraseP_append_right _ hnot]
  simp

section
variable {q : Nq} {p : Post}

theorem Nq.not_present (hnew : ∀ n ∈ q.queue, n.kind = p.kind → n.subject.map (·.1) ≠ p.subject.map (·.1)) :
    q.queue.any (fun n => n.key = p.key) = false := by
  refine List.any_eq_false.mpr fun n hn => ?_
  rw [decide_eq_true_eq, Notice.key, Post.key, Prod.mk.injEq]
  exact fun hkey => hnew n hn hkey.1 hkey.2

/-- R190: with no key twice, the post folds into the one notice that has its key. -/
theorem Nq.post_folds (hq : q.WellFormed) {before after : List Notice} {n : Notice} (hqueue : q.queue = before ++ n :: after)
    (hkey : n.key = p.key) : q.post p = { q with queue := before ++ n.coalesce p :: after } := by
  obtain ⟨-, hnodup, -⟩ := hq
  have hpresent : q.queue.any (fun n => n.key = p.key) = true := List.any_eq_true.mpr ⟨n, by rw [hqueue]; simp, by simpa using hkey⟩
  rw [hqueue, List.map_append, List.map_cons, List.nodup_append, List.nodup_cons] at hnodup
  obtain ⟨-, ⟨hafter, -⟩, hbefore⟩ := hnodup
  have hother : ∀ l : List Notice, (∀ m ∈ l, m.key ≠ p.key) → l.map (fun m => if m.key = p.key then m.coalesce p else m) = l :=
    fun l hl => (List.map_congr_left fun m hm => if_neg (hl m hm)).trans (List.map_id l)
  rw [Nq.post_present hpresent, hqueue, List.map_append, List.map_cons, if_pos hkey, hother before, hother after]
  · exact fun m hm hsame => hafter (List.mem_map.mpr ⟨m, hm, hsame.trans hkey.symm⟩)
  · exact fun m hm hsame => hbefore m.key (List.mem_map_of_mem hm) n.key List.mem_cons_self (hsame.trans hkey.symm)

section
variable (hnew : ∀ n ∈ q.queue, n.kind = p.kind → n.subject.map (·.1) ≠ p.subject.map (·.1)) (hfull : q.queue.length = 32)
include hnew hfull

theorem Nq.post_evicts {before after : List Notice} {n : Notice} (hqueue : q.queue = before ++ n :: after)
    (hleast : ∀ m ∈ q.queue, n.noticeClass.rank ≤ m.noticeClass.rank) (hnewest : ∀ m ∈ after, m.noticeClass ≠ n.noticeClass)
    (hrank : n.noticeClass.rank < p.kind.noticeClass.rank) : q.post p = Nq.join { q with queue := before ++ after, overrun := true } p := by
  have hlong : ¬ q.queue.length < Config.noticeCapacity := by rw [hfull]; decide
  have hclass := leastUrgent_eq_some (n := n) (by rw [hqueue]; simp) hleast
  have hevict : evictNewest n.noticeClass q.queue = before ++ after := by rw [hqueue]; exact evictNewest_eq hnewest
  simp only [Nq.post, Nq.not_present hnew, Bool.false_eq_true, if_false, if_neg hlong, hclass, if_pos hrank, hevict]

theorem Nq.post_overruns (hrank : ∀ m ∈ q.queue, p.kind.noticeClass.rank ≤ m.noticeClass.rank) : q.post p = { q with overrun := true } := by
  have hlong : ¬ q.queue.length < Config.noticeCapacity := by rw [hfull]; decide
  simp only [Nq.post, Nq.not_present hnew, Bool.false_eq_true, if_false, if_neg hlong]
  cases hclass : leastUrgent q.queue with
  | none => rfl
  | some c =>
    obtain ⟨m, hm, rfl⟩ := leastUrgent_mem hclass
    exact if_neg (Nat.not_lt_of_le (hrank m hm))

end

end

/-- Settles O49: a post folds, joins, evicts or is dropped. -/
theorem noticePost : Obligations.NoticePost := by
  unfold Obligations.NoticePost
  intro q p hq joined
  refine ⟨fun before n after hqueue hkind hsubject => ?_, fun hnew => ⟨fun hroom => ?_, fun hfull =>
    ⟨fun before n after hqueue hleast hnewest hrank => ?_, fun hrank => Nq.post_overruns hnew hfull hrank⟩⟩⟩
  · exact Nq.post_folds hq hqueue (Prod.ext hkind hsubject)
  · exact Nq.post_room (Nq.not_present hnew) hroom
  · exact Nq.post_evicts hnew hfull hqueue hleast hnewest hrank

end Sys2Proof.Machine
end
